-- ==== Sys2Proof/Word.lean ====
section
/-! DEFINITION. The fixed widths of the block (00_scope.md R10, R14): every wire byte, every field of a frame and
every parser register but ST, the flags and LAST_ERR is one byte. Bit 0 is the least significant bit. -/

namespace Sys2Proof

/-- One wire byte (R10). -/
abbrev Byte := BitVec 8

/-- The STATUS word's width (R10, R24). -/
abbrev Word32 := BitVec 32

end Sys2Proof
end

