-- ==== Sys2Proof/Syntax.lean ====
section
/-! DEFINITION. The values commands carry (frames, records, payloads, error causes) and the ONE inductive `Instr`:
one constructor for every mnemonic of spec/opcode_table.json, over the table's nine encoding spaces. -/

namespace Sys2Proof

/-! ### Error causes (60_exceptions.md R302) -/

/-- The FramingError causes (R302). Code 0, NONE, is `none` of an `Option FramingCause`. -/
inductive FramingCause where
  | badStart | lengthRange | lengthMismatch | badStart2 | checksum | badStop
  deriving DecidableEq, Repr, Inhabited

/-- The EncodingError causes (R302). -/
inductive EncodingCause where
  | payloadTooLarge | badVariant | badOperand
  deriving DecidableEq, Repr, Inhabited

/-- The UnsupportedRecordError causes (R302). -/
inductive UnsupportedCause where
  | reservedDif | lvarReserved | difeOverflow | vifeOverflow | truncated | vifUnsupported | unsupportedCi
  | headerTruncated
  deriving DecidableEq, Repr, Inhabited

/-! ### Frames (10_state.md R29) -/

/-- A Frame is one of four variants; it carries no length and no checksum field (R29). -/
inductive Frame where
  | single
  | short (c a : Byte)
  | control (c a ci : Byte)
  | long (c a ci : Byte) (data : List Byte)
  deriving DecidableEq, Repr, Inhabited

/-! ### Decoded values and units (44_values.md) -/

/-- The time bases of the duration units (R269). -/
inductive TimeBase where
  | seconds | minutes | hours | days
  deriving DecidableEq, Repr, Inhabited

/-- The units P_UNIT_OF may answer: those of the default table of R269, and `other` for a table that a model puts in
its place (the parameter is open, D44). -/
inductive UnitName where
  | wh | j | m3 | kg
  | onTime (t : TimeBase) | operatingTime (t : TimeBase)
  | w | jPerH | m3PerH | m3PerMin | m3PerS | kgPerH
  | celsiusFlow | celsiusReturn | kelvinDiff | celsiusExternal | bar
  | date | dateTime | hcaUnits
  | averagingDuration (t : TimeBase) | actualityDuration (t : TimeBase)
  | fabricationNo | enhancedId | busAddress | plainText
  | other (code : Nat)
  deriving DecidableEq, Repr, Inhabited

/-- The value kinds of R250. -/
inductive Value where
  | none
  | int (v : Int)
  | real (bits : BitVec 32)
  | bcd (v : Int)
  | bcdInvalid (bytes : List Byte)
  | text (chars : List Byte)
  | manufRaw (bytes : List Byte)
  deriving DecidableEq, Repr, Inhabited

/-- The medium names of R266; every value outside the table is `unknownMedium` with its raw code. -/
inductive Medium where
  | other | oil | electricity | gas | heatOutlet | steam | hotWater | water | heatCostAllocator | compressedAir
  | coolingOutlet | coolingInlet | heatInlet | heatCooling | busSystem | unknownNamed | coldWater | dualWater
  | pressure | adConverter
  | unknownMedium (raw : Byte)
  deriving DecidableEq, Repr, Inhabited

/-! ### Payloads (43_records.md R201, R203, R206, R209, R210) -/

/-- The three manufacturer letters, first letter first (R263). -/
structure Letters where
  x : Byte
  y : Byte
  z : Byte
  deriving DecidableEq, Repr, Inhabited

/-- The 4-byte header of CI 0x7A (30_encoding.md R85). -/
structure Header4 where
  acc : Byte
  st  : Byte
  sig : BitVec 16
  deriving DecidableEq, Repr, Inhabited

/-- The 12-byte header of CI 0x72 (30_encoding.md R84): seven raw fields and three derived views (43_records.md R203). -/
structure Header12 where
  id  : BitVec 32
  man : BitVec 16
  ver : Byte
  med : Byte
  acc : Byte
  st  : Byte
  sig : BitVec 16
  /-- derived: `none` is the spec's INVALID (R265) -/
  idDecimal  : Option Nat
  /-- derived (R263) -/
  manLetters : Letters
  /-- derived (R266) -/
  mediumName : Medium
  deriving DecidableEq, Repr, Inhabited

/-- A payload header: NONE, H0, H4 or H12 (R201, R206). -/
inductive Header where
  | absent
  | h0
  | h4 (h : Header4)
  | h12 (h : Header12)
  deriving DecidableEq, Repr, Inhabited

/-- A RECORD item: its wire fields (`offset` to `vbytes`) and its derived fields (R210, R220, R221). -/
structure Record where
  offset   : Nat
  dif      : Byte
  dife     : List Byte
  vif      : Byte
  textWire : List Byte
  vife     : List Byte
  vbytes   : List Byte
  function : BitVec 2
  storage  : Nat
  tariff   : Nat
  subunit  : Nat
  value    : Value
  unit     : Option (UnitName × Int)
  deriving DecidableEq, Repr, Inhabited

/-- The five item types of R210. Every item records its offset. -/
inductive Item where
  | fill (offset : Nat)
  | globalReadout (offset : Nat)
  | manufData (offset : Nat) (dif : Byte) (bytes : List Byte)
  | opaqueBytes (offset : Nat) (cause : UnsupportedCause) (bytes : List Byte)
  | record (r : Record)
  deriving DecidableEq, Repr, Inhabited

/-- A UserDataResponse (R206). -/
structure UserDataResponse where
  ci             : Byte
  header         : Header
  items          : List Item
  rawTail        : List Byte
  dataBlockCount : Nat
  isLastPackage  : Bool
  errors         : List (UnsupportedCause × Nat)
  deriving DecidableEq, Repr, Inhabited

/-- The RecordList of DECODE_RECORDS (R209). -/
structure RecordList where
  items          : List Item
  dataBlockCount : Nat
  more           : Bool
  errors         : List (UnsupportedCause × Nat)
  deriving DecidableEq, Repr, Inhabited

/-- The response with nothing in it: what an ENCODE_PAYLOAD operand of zeros is. -/
def UserDataResponse.empty : UserDataResponse :=
  { ci := 0, header := .absent, items := [], rawTail := [], dataBlockCount := 0, isLastPackage := true, errors := [] }

/-! ### Instructions -/

/-- The encoding spaces of the opcode table (its `format` column): a byte means an instruction only within one of them.
`cmd8` is the command interface (30_encoding.md R70), the only space the host writes; `state4` is selected by ST
(10_state.md R22); the others by the place of a byte in a frame or in a data block. -/
inductive Format where
  | cmd8 | state4 | wireStart8 | dif8 | dife8 | vif8 | vife8 | lvar8 | cfield8
  deriving DecidableEq, Repr, Inhabited

/-- The DIF bits above the data field: EXT, STORAGE_LSB and FUNCTION (30_encoding.md R87). -/
structure DifHead where
  ext        : Bool
  storageLsb : Bool
  function   : BitVec 2
  deriving DecidableEq, Repr, Inhabited

/-- The instructions: one constructor for each mnemonic of spec/opcode_table.json. -/
inductive Instr where
  -- cmd8: the eleven commands of 30_encoding.md R70, and the reserved codes of R72
  | pushByte (b : Byte)
  | pushBuf (bs : List Byte)
  | getFrame
  | getState
  | reset
  | checksum (bs : List Byte)
  | validateMarkers (start stop lenA lenB : Byte)
  | encodeFrame (operand : List Byte)
  | encodePayload (r : UserDataResponse)
  | decodePayload (ci : Byte) (data : List Byte)
  | decodeRecords (data : List Byte)
  | illegalCommand (code : Byte)
  -- state4: the ten PUSH_BYTE arms, selected by ST (41_parser.md R119 to R129)
  | armExpectStart (b : Byte)
  | armExpectLength (b : Byte)
  | armExpectLengthRepeat (b : Byte)
  | armExpectStart2 (b : Byte)
  | armExpectControl (b : Byte)
  | armExpectAddress (b : Byte)
  | armExpectControlInfo (b : Byte)
  | armExpectData (b : Byte)
  | armExpectChecksum (b : Byte)
  | armExpectStop (b : Byte)
  -- wire_start8: the first byte of a frame (30_encoding.md R74)
  | frameSingle
  | frameShort
  | frameControlOrLong
  -- dif8: the special DIFs (30_encoding.md R89) and the data fields (R88)
  | difManufData
  | difManufDataMore
  | difIdleFill
  | difGlobalReadout
  | difReserved (high : BitVec 4)
  | difNoData (h : DifHead)
  | difInt8 (h : DifHead)
  | difInt16 (h : DifHead)
  | difInt24 (h : DifHead)
  | difInt32 (h : DifHead)
  | difReal32 (h : DifHead)
  | difInt48 (h : DifHead)
  | difInt64 (h : DifHead)
  | difSelection (h : DifHead)
  | difBcd2 (h : DifHead)
  | difBcd4 (h : DifHead)
  | difBcd6 (h : DifHead)
  | difBcd8 (h : DifHead)
  | difLvar (h : DifHead)
  | difBcd12 (h : DifHead)
  -- dife8 (30_encoding.md R90)
  | dife (ext subunit : Bool) (tariff : BitVec 2) (storage : BitVec 4)
  -- vif8: the structural VIFs and the primary ones (30_encoding.md R92)
  | vifUnsupported6F (ext : Bool)
  | vifExtTableFB (ext : Bool)
  | vifPlainText (ext : Bool)
  | vifExtTableFD (ext : Bool)
  | vifAny (ext : Bool)
  | vifManufacturer (ext : Bool)
  | vifPrimary (ext : Bool) (value : BitVec 7)
  -- vife8 (30_encoding.md R92)
  | vife (ext : Bool) (value : BitVec 7)
  -- lvar8 (30_encoding.md R93)
  | lvarText (length : Byte)
  | lvarBcdPos (count : BitVec 4)
  | lvarReserved (lv : Byte)
  | lvarBcdNeg (count : BitVec 4)
  | lvarBinary (count : BitVec 4)
  -- cfield8: the named C values (30_encoding.md R81)
  | cSndNke
  | cSndUd (fcb : Bool)
  | cReqUd2 (fcb : Bool)
  | cReqUd1 (fcb : Bool)
  | cRspUd (acd dfc : Bool)
  deriving DecidableEq, Repr, Inhabited

/-- The space each instruction is encoded in. -/
def Instr.format : Instr → Format
  | .pushByte _ | .pushBuf _ | .getFrame | .getState | .reset | .checksum _ | .validateMarkers _ _ _ _
  | .encodeFrame _ | .encodePayload _ | .decodePayload _ _ | .decodeRecords _ | .illegalCommand _ => .cmd8
  | .armExpectStart _ | .armExpectLength _ | .armExpectLengthRepeat _ | .armExpectStart2 _ | .armExpectControl _
  | .armExpectAddress _ | .armExpectControlInfo _ | .armExpectData _ | .armExpectChecksum _
  | .armExpectStop _ => .state4
  | .frameSingle | .frameShort | .frameControlOrLong => .wireStart8
  | .difManufData | .difManufDataMore | .difIdleFill | .difGlobalReadout | .difReserved _ | .difNoData _
  | .difInt8 _ | .difInt16 _ | .difInt24 _ | .difInt32 _ | .difReal32 _ | .difInt48 _ | .difInt64 _
  | .difSelection _ | .difBcd2 _ | .difBcd4 _ | .difBcd6 _ | .difBcd8 _ | .difLvar _ | .difBcd12 _ => .dif8
  | .dife _ _ _ _ => .dife8
  | .vifUnsupported6F _ | .vifExtTableFB _ | .vifPlainText _ | .vifExtTableFD _ | .vifAny _
  | .vifManufacturer _ | .vifPrimary _ _ => .vif8
  | .vife _ _ => .vife8
  | .lvarText _ | .lvarBcdPos _ | .lvarReserved _ | .lvarBcdNeg _ | .lvarBinary _ => .lvar8
  | .cSndNke | .cSndUd _ | .cReqUd2 _ | .cReqUd1 _ | .cRspUd _ _ => .cfield8

/-- One command as the host's interface carries it: the 8-bit code and the operand bytes in the order of
30_encoding.md R70 (their number is carried by the interface, 95_test_vectors.md section 7), and beside them the one
structured operand, ENCODE_PAYLOAD's UserDataResponse, which has no byte layout (R71). A byte of another space
travels in `code` alone; an arm's `code` is ST's code and its one operand the pushed byte. -/
structure Packet where
  code     : Byte
  operands : List Byte := []
  response : Option UserDataResponse := none
  deriving DecidableEq, Repr, Inhabited

end Sys2Proof
end

