-- ==== Sys2Proof/Config.lean ====
section
/-! DEFINITION. The fixed constants of the block, the implementation parameters of 00_scope.md R9 as plain data, and
the free values: the register contents that the spec leaves unspecified after RESET. -/

namespace Sys2Proof.Config

/-- P_MAX_DATA (00_scope.md R12). -/
def maxData : Nat := 252

/-- Start byte of a short frame (30_encoding.md R73). -/
def startShort : Byte := 0x10
/-- Start byte, and second start byte, of a control or long frame (R73). -/
def startLong : Byte := 0x68
/-- Stop byte of every multi-byte frame (R77). -/
def stopByte : Byte := 0x16
/-- The single-character frame (R78). -/
def ackByte : Byte := 0xE5

/-- The header layouts that exist (30_encoding.md R84, R85): a table entry names one, so that every table a model
may be given has a meaning (DESIGN CHOICE, notes/assumptions/8.md). -/
inductive HeaderKind where
  | h0 | h4 | h12
  deriving DecidableEq, Repr, Inhabited

/-- Header length in bytes (43_records.md R200). -/
def HeaderKind.length : HeaderKind → Nat
  | .h0 => 0
  | .h4 => 4
  | .h12 => 12

/-- P_PLAINTEXT_POS (R9, D28). -/
inductive PlainTextPos where
  | afterVif | afterVifeChain
  deriving DecidableEq, Repr, Inhabited

/-- P_MORE_SOURCE (R9, D24). -/
inductive MoreSource where
  | dif1F
  | ciMask (m : Byte)
  deriving DecidableEq, Repr, Inhabited

/-- The parameters of 00_scope.md R9. They are arguments of the step relation, fixed before the first command and
never written (70_reset_and_hazards.md R342, 20_memory.md R65). The two parameters that are functions of a VIF chain
are held as tables of the chains on which they differ from their default (DESIGN CHOICE, notes/assumptions/8.md). -/
structure Params where
  longStart2       : Bool
  maxDife          : Nat
  maxVife          : Nat
  plainTextPos     : PlainTextPos
  moreSource       : MoreSource
  lvarExtended     : Bool
  bcd12            : Bool
  intSigned        : Bool
  /-- P_VIF_SUPPORTED where it differs from the default of 44_values.md R268 -/
  vifSupportedAt   : List ((Byte × List Byte) × Bool)
  /-- P_UNIT_OF where it differs from the default of 44_values.md R269 -/
  unitAt           : List ((Byte × List Byte) × Option (UnitName × Int))
  ciTable          : List (Byte × HeaderKind)
  getFrameConsumes : Bool
  deriving DecidableEq, Repr, Inhabited

/-- The value each parameter has when no argument is given (R9). -/
def Params.default : Params :=
  { longStart2 := true, maxDife := 10, maxVife := 10, plainTextPos := .afterVif, moreSource := .dif1F,
    lvarExtended := true, bcd12 := true, intSigned := true, vifSupportedAt := [], unitAt := [],
    ciTable := [(0x72, .h12), (0x7A, .h4), (0x78, .h0)], getFrameConsumes := true }

/-! ### Free values (10_state.md R36, 41_parser.md R150: "W_*, BUF and FR become unspecified")

Each is an opaque function of the number of the draw: nothing can evaluate it (DESIGN CHOICE, notes/assumptions/7.md). -/

/-- W_KIND after draw `n`: `true` is LONG. -/
opaque freeKindLong : Nat → Bool
/-- The 8-bit working register number `r` after draw `n`. -/
opaque freeByte : (n r : Nat) → Byte
/-- BUF after draw `n`. -/
opaque freeBuf : Nat → Vector Byte 252
/-- FR after draw `n`. -/
opaque freeFrame : Nat → Frame

end Sys2Proof.Config
end

