-- ==== Sys2Proof/WellFormed.lean ====
section
/-! DEFINITION. Which terms of `Instr` are instructions: a few constructors carry a field that is wider than the
encodings their row of spec/opcode_table.json covers. Every other term is an instruction. -/

namespace Sys2Proof

/-- The eleven command codes of 30_encoding.md R70. Every other code is reserved (R72). -/
def isCommandCode (code : Byte) : Bool :=
  [0x01#8, 0x02#8, 0x03#8, 0x04#8, 0x05#8, 0x10#8, 0x11#8, 0x20#8, 0x21#8, 0x30#8, 0x31#8].contains code

/-- The primary VIF values (30_encoding.md R92): all but the reserved code 0x6F and the five structural ones. -/
def isPrimaryVif (v : BitVec 7) : Bool :=
  !([0x6F#7, 0x7B#7, 0x7C#7, 0x7D#7, 0x7E#7, 0x7F#7].contains v)

/-- The LVAR values reserved under every parameter (30_encoding.md R93). -/
def isReservedLvar (lv : Byte) : Bool :=
  (decide (0xCA ≤ lv.toNat) && decide (lv.toNat ≤ 0xCF)) || (decide (0xDA ≤ lv.toNat) && decide (lv.toNat ≤ 0xDF)) ||
    decide (0xF0 ≤ lv.toNat)

/-- The high nibbles of the reserved DIFs (30_encoding.md R89). -/
def isReservedDifHigh (high : BitVec 4) : Bool :=
  !([0x0#4, 0x1#4, 0x2#4, 0x7#4].contains high)

/-- The check on an instruction's fields. -/
def Instr.wellFormed : Instr → Bool
  | .illegalCommand code => !isCommandCode code
  | .difReserved high => isReservedDifHigh high
  | .vifPrimary _ value => isPrimaryVif value
  | .lvarText length => decide (length.toNat ≤ 0xBF)
  | .lvarBcdPos count => decide (count.toNat ≤ 9)
  | .lvarBcdNeg count => decide (count.toNat ≤ 9)
  | .lvarReserved lv => isReservedLvar lv
  | .pushByte _ | .pushBuf _ | .getFrame | .getState | .reset | .checksum _ | .validateMarkers _ _ _ _
  | .encodeFrame _ | .encodePayload _ | .decodePayload _ _ | .decodeRecords _
  | .armExpectStart _ | .armExpectLength _ | .armExpectLengthRepeat _ | .armExpectStart2 _ | .armExpectControl _
  | .armExpectAddress _ | .armExpectControlInfo _ | .armExpectData _ | .armExpectChecksum _ | .armExpectStop _
  | .frameSingle | .frameShort | .frameControlOrLong
  | .difManufData | .difManufDataMore | .difIdleFill | .difGlobalReadout | .difNoData _
  | .difInt8 _ | .difInt16 _ | .difInt24 _ | .difInt32 _ | .difReal32 _ | .difInt48 _ | .difInt64 _
  | .difSelection _ | .difBcd2 _ | .difBcd4 _ | .difBcd6 _ | .difBcd8 _ | .difLvar _ | .difBcd12 _
  | .dife _ _ _ _ | .vifUnsupported6F _ | .vifExtTableFB _ | .vifPlainText _ | .vifExtTableFD _ | .vifAny _
  | .vifManufacturer _ | .vife _ _ | .lvarBinary _
  | .cSndNke | .cSndUd _ | .cReqUd2 _ | .cReqUd1 _ | .cRspUd _ _ => true

/-- `i` is an instruction of the opcode table. -/
abbrev Instr.WellFormed (i : Instr) : Prop := i.wellFormed = true

end Sys2Proof
end

