-- ==== Sys2Proof/Decode.lean ====
section
/-! DEFINITION. The decoder of each encoding space, total on any packet and rejecting by name, and after it the encoder,
both written from the tables of 30_encoding.md (R70, R72, R74, R81, R87 to R93) and 10_state.md R22. -/

namespace Sys2Proof

/-- Why a packet is no instruction. -/
inductive DecodeError where
  /-- the operands are not those R70 lists for the command `code` (or a row byte came with operands) -/
  | operands (code : Byte)
  /-- the byte names no row of its space: a frame's first byte other than the three of R74, a state code 10 to 15
  (10_state.md R22), a C value that R81 does not name -/
  | noRow (format : Format) (code : Byte)
  deriving DecidableEq, Repr

/-! ### Bytes of the data-record spaces -/

/-- A DIF byte from its head and its data field (R87). -/
def DifHead.byte (h : DifHead) (dataField : BitVec 4) : Byte :=
  BitVec.ofBool h.ext ++ BitVec.ofBool h.storageLsb ++ h.function ++ dataField

/-- The head of a DIF byte (R87). -/
def difHeadOf (x : Byte) : DifHead :=
  { ext := x.getLsbD 7, storageLsb := x.getLsbD 6, function := x.extractLsb' 4 2 }

/-- A DIFE byte from its fields (R90). -/
def difeByte (ext subunit : Bool) (tariff : BitVec 2) (storage : BitVec 4) : Byte :=
  BitVec.ofBool ext ++ BitVec.ofBool subunit ++ tariff ++ storage

/-- A VIF or VIFE byte from its fields (R92). -/
def vifByte (ext : Bool) (value : BitVec 7) : Byte := BitVec.ofBool ext ++ value

/-- An LVAR byte from its high nibble and the count in its low one (R93). -/
def lvarByte (high count : BitVec 4) : Byte := high ++ count

/-- A C value with bit 5 (FCB) and the rest given at FCB = 0 (R80, R81). -/
def fcbByte (base : Byte) (fcb : Bool) : Byte := if fcb then base ||| 0x20#8 else base

/-! ### Row decoders -/

/-- dif8: the whole-byte specials first, then the reserved low nibble, then the data field (R88, R89). -/
def decodeDif (x : Byte) : Instr :=
  match x with
  | 0x0F#8 => .difManufData
  | 0x1F#8 => .difManufDataMore
  | 0x2F#8 => .difIdleFill
  | 0x7F#8 => .difGlobalReadout
  | x =>
    match x.extractLsb' 0 4 with
    | 0x0#4 => .difNoData (difHeadOf x)
    | 0x1#4 => .difInt8 (difHeadOf x)
    | 0x2#4 => .difInt16 (difHeadOf x)
    | 0x3#4 => .difInt24 (difHeadOf x)
    | 0x4#4 => .difInt32 (difHeadOf x)
    | 0x5#4 => .difReal32 (difHeadOf x)
    | 0x6#4 => .difInt48 (difHeadOf x)
    | 0x7#4 => .difInt64 (difHeadOf x)
    | 0x8#4 => .difSelection (difHeadOf x)
    | 0x9#4 => .difBcd2 (difHeadOf x)
    | 0xA#4 => .difBcd4 (difHeadOf x)
    | 0xB#4 => .difBcd6 (difHeadOf x)
    | 0xC#4 => .difBcd8 (difHeadOf x)
    | 0xD#4 => .difLvar (difHeadOf x)
    | 0xE#4 => .difBcd12 (difHeadOf x)
    | _ => .difReserved (x.extractLsb' 4 4)

/-- dife8 (R90). -/
def decodeDife (x : Byte) : Instr :=
  .dife (x.getLsbD 7) (x.getLsbD 6) (x.extractLsb' 4 2) (x.extractLsb' 0 4)

/-- vif8: the structural values first, bit 7 ignored (R92). -/
def decodeVif (x : Byte) : Instr :=
  match x.extractLsb' 0 7 with
  | 0x6F#7 => .vifUnsupported6F (x.getLsbD 7)
  | 0x7B#7 => .vifExtTableFB (x.getLsbD 7)
  | 0x7C#7 => .vifPlainText (x.getLsbD 7)
  | 0x7D#7 => .vifExtTableFD (x.getLsbD 7)
  | 0x7E#7 => .vifAny (x.getLsbD 7)
  | 0x7F#7 => .vifManufacturer (x.getLsbD 7)
  | v => .vifPrimary (x.getLsbD 7) v

/-- vife8 (R92). -/
def decodeVife (x : Byte) : Instr := .vife (x.getLsbD 7) (x.extractLsb' 0 7)

/-- lvar8 (R93). -/
def decodeLvar (x : Byte) : Instr :=
  if x.toNat ≤ 0xBF then .lvarText x
  else if x.toNat ≤ 0xC9 then .lvarBcdPos (x.extractLsb' 0 4)
  else if x.toNat ≤ 0xCF then .lvarReserved x
  else if x.toNat ≤ 0xD9 then .lvarBcdNeg (x.extractLsb' 0 4)
  else if x.toNat ≤ 0xDF then .lvarReserved x
  else if x.toNat ≤ 0xEF then .lvarBinary (x.extractLsb' 0 4)
  else .lvarReserved x

/-- wire_start8 (R74). -/
def decodeStart (x : Byte) : Except DecodeError Instr :=
  match x with
  | 0xE5#8 => .ok .frameSingle
  | 0x10#8 => .ok .frameShort
  | 0x68#8 => .ok .frameControlOrLong
  | x => .error (.noRow .wireStart8 x)

/-- state4: ST's code selects the arm, `b` is the byte pushed (10_state.md R22, 41_parser.md R119). -/
def decodeArm (code b : Byte) : Except DecodeError Instr :=
  match code with
  | 0x00#8 => .ok (.armExpectStart b)
  | 0x01#8 => .ok (.armExpectLength b)
  | 0x02#8 => .ok (.armExpectLengthRepeat b)
  | 0x03#8 => .ok (.armExpectStart2 b)
  | 0x04#8 => .ok (.armExpectControl b)
  | 0x05#8 => .ok (.armExpectAddress b)
  | 0x06#8 => .ok (.armExpectControlInfo b)
  | 0x07#8 => .ok (.armExpectData b)
  | 0x08#8 => .ok (.armExpectChecksum b)
  | 0x09#8 => .ok (.armExpectStop b)
  | code => .error (.noRow .state4 code)

/-- cfield8: the named C values (R81). -/
def decodeCField (x : Byte) : Except DecodeError Instr :=
  match x with
  | 0x40#8 => .ok .cSndNke
  | 0x53#8 => .ok (.cSndUd false)
  | 0x73#8 => .ok (.cSndUd true)
  | 0x5B#8 => .ok (.cReqUd2 false)
  | 0x7B#8 => .ok (.cReqUd2 true)
  | 0x5A#8 => .ok (.cReqUd1 false)
  | 0x7A#8 => .ok (.cReqUd1 true)
  | 0x08#8 => .ok (.cRspUd false false)
  | 0x18#8 => .ok (.cRspUd false true)
  | 0x28#8 => .ok (.cRspUd true false)
  | 0x38#8 => .ok (.cRspUd true true)
  | x => .error (.noRow .cfield8 x)

/-- cmd8: the command interface (R70). A code that R70 does not list is an illegal command, and its operands are not
read (R72). A command with operands other than those R70 lists for it is rejected by name. -/
def decodeCommand (p : Packet) : Except DecodeError Instr :=
  match p.code, p.operands, p.response with
  | 0x01#8, [b], none => .ok (.pushByte b)
  | 0x02#8, bs, none => .ok (.pushBuf bs)
  | 0x03#8, [], none => .ok .getFrame
  | 0x04#8, [], none => .ok .getState
  | 0x05#8, [], none => .ok .reset
  | 0x10#8, bs, none => .ok (.checksum bs)
  | 0x11#8, [start, stop, lenA, lenB], none => .ok (.validateMarkers start stop lenA lenB)
  | 0x20#8, operand, none => .ok (.encodeFrame operand)
  | 0x21#8, [], some r => .ok (.encodePayload r)
  | 0x30#8, ci :: data, none => .ok (.decodePayload ci data)
  | 0x31#8, data, none => .ok (.decodeRecords data)
  | code, _, _ => if isCommandCode code then .error (.operands code) else .ok (.illegalCommand code)

/-- The decoder of every space: a row byte stands alone, an arm's ST code has the pushed byte with it. -/
def decodeIn (f : Format) (p : Packet) : Except DecodeError Instr :=
  match f, p.operands, p.response with
  | .cmd8, _, _ => decodeCommand p
  | .state4, [b], none => decodeArm p.code b
  | .wireStart8, [], none => decodeStart p.code
  | .dif8, [], none => .ok (decodeDif p.code)
  | .dife8, [], none => .ok (decodeDife p.code)
  | .vif8, [], none => .ok (decodeVif p.code)
  | .vife8, [], none => .ok (decodeVife p.code)
  | .lvar8, [], none => .ok (decodeLvar p.code)
  | .cfield8, [], none => decodeCField p.code
  | _, _, _ => .error (.operands p.code)

/-- The decoder of what the host issues: the command space (R70, R72). -/
def decode (p : Packet) : Except DecodeError Instr := decodeIn .cmd8 p

/-! ### Encoder -/

/-- The packet of an instruction, in the space `i.format`. -/
def encode : Instr → Packet
  | .pushByte b => { code := 0x01, operands := [b] }
  | .pushBuf bs => { code := 0x02, operands := bs }
  | .getFrame => { code := 0x03 }
  | .getState => { code := 0x04 }
  | .reset => { code := 0x05 }
  | .checksum bs => { code := 0x10, operands := bs }
  | .validateMarkers start stop lenA lenB => { code := 0x11, operands := [start, stop, lenA, lenB] }
  | .encodeFrame operand => { code := 0x20, operands := operand }
  | .encodePayload r => { code := 0x21, response := some r }
  | .decodePayload ci data => { code := 0x30, operands := ci :: data }
  | .decodeRecords data => { code := 0x31, operands := data }
  | .illegalCommand code => { code := code }
  | .armExpectStart b => { code := 0, operands := [b] }
  | .armExpectLength b => { code := 1, operands := [b] }
  | .armExpectLengthRepeat b => { code := 2, operands := [b] }
  | .armExpectStart2 b => { code := 3, operands := [b] }
  | .armExpectControl b => { code := 4, operands := [b] }
  | .armExpectAddress b => { code := 5, operands := [b] }
  | .armExpectControlInfo b => { code := 6, operands := [b] }
  | .armExpectData b => { code := 7, operands := [b] }
  | .armExpectChecksum b => { code := 8, operands := [b] }
  | .armExpectStop b => { code := 9, operands := [b] }
  | .frameSingle => { code := 0xE5 }
  | .frameShort => { code := 0x10 }
  | .frameControlOrLong => { code := 0x68 }
  | .difManufData => { code := 0x0F }
  | .difManufDataMore => { code := 0x1F }
  | .difIdleFill => { code := 0x2F }
  | .difGlobalReadout => { code := 0x7F }
  | .difReserved high => { code := lvarByte high 0xF }
  | .difNoData h => { code := h.byte 0x0 }
  | .difInt8 h => { code := h.byte 0x1 }
  | .difInt16 h => { code := h.byte 0x2 }
  | .difInt24 h => { code := h.byte 0x3 }
  | .difInt32 h => { code := h.byte 0x4 }
  | .difReal32 h => { code := h.byte 0x5 }
  | .difInt48 h => { code := h.byte 0x6 }
  | .difInt64 h => { code := h.byte 0x7 }
  | .difSelection h => { code := h.byte 0x8 }
  | .difBcd2 h => { code := h.byte 0x9 }
  | .difBcd4 h => { code := h.byte 0xA }
  | .difBcd6 h => { code := h.byte 0xB }
  | .difBcd8 h => { code := h.byte 0xC }
  | .difLvar h => { code := h.byte 0xD }
  | .difBcd12 h => { code := h.byte 0xE }
  | .dife ext subunit tariff storage => { code := difeByte ext subunit tariff storage }
  | .vifUnsupported6F ext => { code := vifByte ext 0x6F }
  | .vifExtTableFB ext => { code := vifByte ext 0x7B }
  | .vifPlainText ext => { code := vifByte ext 0x7C }
  | .vifExtTableFD ext => { code := vifByte ext 0x7D }
  | .vifAny ext => { code := vifByte ext 0x7E }
  | .vifManufacturer ext => { code := vifByte ext 0x7F }
  | .vifPrimary ext value => { code := vifByte ext value }
  | .vife ext value => { code := vifByte ext value }
  | .lvarText length => { code := length }
  | .lvarBcdPos count => { code := lvarByte 0xC count }
  | .lvarReserved lv => { code := lv }
  | .lvarBcdNeg count => { code := lvarByte 0xD count }
  | .lvarBinary count => { code := lvarByte 0xE count }
  | .cSndNke => { code := 0x40 }
  | .cSndUd fcb => { code := fcbByte 0x53 fcb }
  | .cReqUd2 fcb => { code := fcbByte 0x5B fcb }
  | .cReqUd1 fcb => { code := fcbByte 0x5A fcb }
  | .cRspUd acd dfc => { code := (0b00#2 ++ BitVec.ofBool acd ++ BitVec.ofBool dfc ++ 0x8#4 : BitVec 8) }

/-! ### The opcode table -/

/-- The rows of spec/opcode_table.json that an instruction stands for, as (match, mask) on its row byte. -/
def Instr.rows : Instr → List (Byte × Byte)
  | .pushByte _ => [(0x01, 0xFF)]
  | .pushBuf _ => [(0x02, 0xFF)]
  | .getFrame => [(0x03, 0xFF)]
  | .getState => [(0x04, 0xFF)]
  | .reset => [(0x05, 0xFF)]
  | .checksum _ => [(0x10, 0xFF)]
  | .validateMarkers _ _ _ _ => [(0x11, 0xFF)]
  | .encodeFrame _ => [(0x20, 0xFF)]
  | .encodePayload _ => [(0x21, 0xFF)]
  | .decodePayload _ _ => [(0x30, 0xFF)]
  | .decodeRecords _ => [(0x31, 0xFF)]
  | .illegalCommand _ =>
    [(0x00, 0xFF), (0x06, 0xFE), (0x08, 0xF8), (0x12, 0xFE), (0x14, 0xFC), (0x18, 0xF8), (0x22, 0xFE), (0x24, 0xFC),
      (0x28, 0xF8), (0x32, 0xFE), (0x34, 0xFC), (0x38, 0xF8), (0x40, 0xC0), (0x80, 0x80)]
  | .armExpectStart _ => [(0x00, 0x0F)]
  | .armExpectLength _ => [(0x01, 0x0F)]
  | .armExpectLengthRepeat _ => [(0x02, 0x0F)]
  | .armExpectStart2 _ => [(0x03, 0x0F)]
  | .armExpectControl _ => [(0x04, 0x0F)]
  | .armExpectAddress _ => [(0x05, 0x0F)]
  | .armExpectControlInfo _ => [(0x06, 0x0F)]
  | .armExpectData _ => [(0x07, 0x0F)]
  | .armExpectChecksum _ => [(0x08, 0x0F)]
  | .armExpectStop _ => [(0x09, 0x0F)]
  | .frameSingle => [(0xE5, 0xFF)]
  | .frameShort => [(0x10, 0xFF)]
  | .frameControlOrLong => [(0x68, 0xFF)]
  | .difManufData => [(0x0F, 0xFF)]
  | .difManufDataMore => [(0x1F, 0xFF)]
  | .difIdleFill => [(0x2F, 0xFF)]
  | .difGlobalReadout => [(0x7F, 0xFF)]
  | .difReserved _ => [(0x0F, 0x0F)]
  | .difNoData _ => [(0x00, 0x0F)]
  | .difInt8 _ => [(0x01, 0x0F)]
  | .difInt16 _ => [(0x02, 0x0F)]
  | .difInt24 _ => [(0x03, 0x0F)]
  | .difInt32 _ => [(0x04, 0x0F)]
  | .difReal32 _ => [(0x05, 0x0F)]
  | .difInt48 _ => [(0x06, 0x0F)]
  | .difInt64 _ => [(0x07, 0x0F)]
  | .difSelection _ => [(0x08, 0x0F)]
  | .difBcd2 _ => [(0x09, 0x0F)]
  | .difBcd4 _ => [(0x0A, 0x0F)]
  | .difBcd6 _ => [(0x0B, 0x0F)]
  | .difBcd8 _ => [(0x0C, 0x0F)]
  | .difLvar _ => [(0x0D, 0x0F)]
  | .difBcd12 _ => [(0x0E, 0x0F)]
  | .dife _ _ _ _ => [(0x00, 0x00)]
  | .vifUnsupported6F _ => [(0x6F, 0x7F)]
  | .vifExtTableFB _ => [(0x7B, 0x7F)]
  | .vifPlainText _ => [(0x7C, 0x7F)]
  | .vifExtTableFD _ => [(0x7D, 0x7F)]
  | .vifAny _ => [(0x7E, 0x7F)]
  | .vifManufacturer _ => [(0x7F, 0x7F)]
  | .vifPrimary _ _ => [(0x00, 0x00)]
  | .vife _ _ => [(0x00, 0x00)]
  | .lvarText _ => [(0x00, 0x80), (0x80, 0xC0)]
  | .lvarBcdPos _ => [(0xC0, 0xF8), (0xC8, 0xFE)]
  | .lvarReserved _ => [(0xCA, 0xFE), (0xCC, 0xFC), (0xDA, 0xFE), (0xDC, 0xFC), (0xF0, 0xF0)]
  | .lvarBcdNeg _ => [(0xD0, 0xF8), (0xD8, 0xFE)]
  | .lvarBinary _ => [(0xE0, 0xF0)]
  | .cSndNke => [(0x40, 0xFF)]
  | .cSndUd _ => [(0x53, 0xFF), (0x73, 0xFF)]
  | .cReqUd2 _ => [(0x5B, 0xFF), (0x7B, 0xFF)]
  | .cReqUd1 _ => [(0x5A, 0xFF), (0x7A, 0xFF)]
  | .cRspUd _ _ => [(0x08, 0xCF)]

/-- The row byte of `i` matches one of its rows of the opcode table. -/
def Instr.matchesRow (i : Instr) : Bool := i.rows.any fun r => (encode i).code &&& r.2 == r.1

/-! ### Words as spec/opcode_table.json numbers them

The table gives each row one byte and no operand bits, and does not say in which space a word stands. The one space
the host writes is the command space, so a word is read there (notes/assumptions/2.md). -/

/-- The operand bytes a command has at the least (R70): a byte sequence may be empty, a Frame operand has 5 bytes
(R71), and ENCODE_PAYLOAD's operand is no byte. -/
def minOperands (code : Byte) : Nat :=
  match code with
  | 0x01#8 => 1
  | 0x11#8 => 4
  | 0x20#8 => 5
  | 0x30#8 => 1
  | _ => 0

/-- The bytes of a word, least significant first. -/
def wordBytes (nbits w : Nat) : List Byte := (List.range (nbits / 8)).map fun k => BitVec.ofNat 8 (w >>> (8 * k))

/-- The command packet of a word: the code, then its operands, zeros above `nbits`. -/
def tablePacket (nbits w : Nat) : Packet :=
  let code := (wordBytes nbits w).headD 0
  let given := (wordBytes nbits w).tail
  { code := code,
    operands := given ++ List.replicate (minOperands code - given.length) 0,
    response := if code = 0x21 then some UserDataResponse.empty else none }

/-- The instruction the decoder reads from an instruction word of the opcode table. -/
def decodeTableWord (nbits w : Nat) : Option Instr :=
  match decode (tablePacket nbits w) with
  | .ok i => some i
  | .error _ => none

end Sys2Proof
end

