-- ==== Sys2Proof/Machine/State.lean ====
section
/-! DEFINITION. The state: the Packet Parser's registers (10_state.md R21), the record decoder's working context within
one DECODE command, the parameters (00_scope.md R9), and what the host and the block have said to each other so far
(70_reset_and_hazards.md R352). Plain data throughout. -/

namespace Sys2Proof.Machine

open Sys2Proof.Config

/-- The ten parser states (10_state.md R22). Codes 10 to 15 are never held. -/
inductive PState where
  | expectStart | expectLength | expectLengthRepeat | expectStart2 | expectControl | expectAddress
  | expectControlInfo | expectData | expectChecksum | expectStop
  deriving DecidableEq, Repr, Inhabited

/-- W_KIND (R21): the family of the frame in progress. -/
inductive Kind where
  | short | long
  deriving DecidableEq, Repr, Inhabited

/-- The parser's registers: exactly those of 10_state.md R21. -/
structure Parser where
  st         : PState
  wKind      : Kind
  wLen       : Byte
  wC         : Byte
  wA         : Byte
  wCI        : Byte
  wRem       : Byte
  wIdx       : Byte
  wSum       : Byte
  buf        : Vector Byte 252
  fr         : Frame
  frameReady : Bool
  errEvent   : Bool
  /-- `none` is the cause code 0, NONE (60_exceptions.md R302) -/
  lastErr    : Option FramingCause
  deriving DecidableEq, Repr

/-- Which part of the data block the record decoder reads next: the space its next byte is an encoding of
(43_records.md R209). `idle` between commands, `done` when the loop has ended. -/
inductive DrdPhase where
  | idle | dif | dife | vif | vife | lvar | done
  deriving DecidableEq, Repr, Inhabited

/-- The record decoder's working context: the variables of the loop of 43_records.md R209. It exists only within a
DECODE command (the unit holds no state between commands, 10_state.md R20; DEDUCED, notes/assumptions/9.md).
`start` is the loop's i, `pos` its j, `taken` the bytes p[i .. j-1] and `rest` the bytes p[j ..]. -/
structure Drd where
  phase  : DrdPhase
  pos    : Nat
  rest   : List Byte
  start  : Nat
  taken  : List Byte
  dif    : Byte
  dife   : List Byte
  vif    : Byte
  text   : List Byte
  vife   : List Byte
  items  : List Item
  errors : List (UnsupportedCause × Nat)
  deriving DecidableEq, Repr

/-- The context between commands. -/
def Drd.idle : Drd :=
  { phase := .idle, pos := 0, rest := [], start := 0, taken := [], dif := 0, dife := [], vif := 0, text := [],
    vife := [], items := [], errors := [] }

/-- The result a command returns (30_encoding.md R70, R71, R72). -/
inductive Result where
  /-- STATUS: PUSH_BYTE, GET_STATE, RESET -/
  | status (w : Word32)
  /-- PUSH_BUF: (consumed, errors, STATUS) -/
  | pushed (consumed errors : Nat) (w : Word32)
  /-- GET_FRAME: NONE or a Frame, as R71 lays them out -/
  | frame (layout : List Byte)
  /-- CHECKSUM -/
  | sum (b : Byte)
  /-- VALIDATE_MARKERS: OK is `none` -/
  | markers (e : Option FramingCause)
  /-- ENCODE, ENCODE_PAYLOAD: the bytes -/
  | bytes (bs : List Byte)
  /-- ENCODE, ENCODE_PAYLOAD: EncodingError, no bytes -/
  | encodingError (e : EncodingCause)
  /-- DECODE_PAYLOAD -/
  | response (r : UserDataResponse)
  /-- DECODE_RECORDS -/
  | records (r : RecordList)
  /-- ILLEGAL_COMMAND (R72) -/
  | illegalCommand
  deriving DecidableEq, Repr

/-- Why the machine stops. -/
inductive Fault where
  /-- The EXPECT_DATA arm writes BUF at W_IDX = 252 to 255, an index that does not exist (20_memory.md R51). Raised by
  ARM_EXPECT_DATA, PUSH_BYTE and PUSH_BUF, and only in states that no run reaches (10_state.md R32). DESIGN CHOICE,
  notes/assumptions/6.md. Safe. -/
  | bufIndex
  deriving DecidableEq, Repr

/-- Why the machine gives no meaning. -/
inductive Refusal where
  /-- An instruction without a meaning yet, by its mnemonic. No arm of exec answers it. Safe. -/
  | notModelled (mnemonic : String)
  /-- What the host issued is no command: a known code with operands other than its own. Raised by step. The
  interface carries each command with its operands (30_encoding.md R70), so the hardware has no such case. DESIGN CHOICE,
  notes/assumptions/4.md. Safe. -/
  | malformedCommand (e : DecodeError)
  /-- A row of a space that the machine is not reading in: an arm that ST does not select, a DIF where no DIF is
  expected. Raised by the rows of the spaces other than cmd8, which only a command's own step runs, each where its
  selector selects it (41_parser.md R119 "exactly one arm runs"). DEDUCED, notes/assumptions/3.md. Safe. -/
  | notSelected
  deriving DecidableEq, Repr

/-- The machine. `parser` is the block's own state; the rest is the parameters, the decoder's context within a
command, the host's side of the interface, and a counter of free values. -/
structure State where
  parser     : Parser
  drd        : Drd
  /-- the parameters of 00_scope.md R9, fixed before the first command (notes/assumptions/8.md) -/
  params     : Params
  /-- how many times the working registers have become unspecified: the argument of the next free values
  (the model's own, notes/assumptions/7.md) -/
  draws      : Nat
  /-- the commands the host has issued and the block has not yet taken, oldest first (20_memory.md R61;
  notes/assumptions/10.md) -/
  pending    : List Packet
  /-- the results of the commands so far, oldest first (R352 part 1) -/
  results    : List Result
  /-- the frames GET_FRAME has returned, oldest first (R352 part 5) -/
  framesOut  : List Frame
  /-- some command was refused with ILLEGAL_COMMAND (R352 part 4) -/
  refusalMark : Bool
  deriving DecidableEq, Repr

/-- The parser after power-on reset (10_state.md R36): ST, the flags and LAST_ERR as the spec gives them; the working
registers, BUF and FR, which it leaves unspecified, at zero, SHORT and SINGLE (DESIGN CHOICE,
notes/assumptions/5.md). -/
def Parser.reset : Parser :=
  { st := .expectStart, wKind := .short, wLen := 0, wC := 0, wA := 0, wCI := 0, wRem := 0, wIdx := 0, wSum := 0,
    buf := Vector.replicate 252 0, fr := .single, frameReady := false, errEvent := false, lastErr := none }

/-- The machine right after power-on reset (70_reset_and_hazards.md R340), with the default parameters (R9) and no
command issued. -/
def State.reset : State :=
  { parser := Parser.reset, drd := Drd.idle, params := Params.default, draws := 0, pending := [], results := [],
    framesOut := [], refusalMark := false }

end Sys2Proof.Machine
end

