-- ==== Sys2Proof/Machine/Flags.lean ====
section
/-! DEFINITION. The STATUS word and the codes it shows (10_state.md R22, R24, R25; 60_exceptions.md R302). -/

namespace Sys2Proof.Machine

/-- The state code (R22). -/
def PState.code : PState → BitVec 4
  | .expectStart => 0
  | .expectLength => 1
  | .expectLengthRepeat => 2
  | .expectStart2 => 3
  | .expectControl => 4
  | .expectAddress => 5
  | .expectControlInfo => 6
  | .expectData => 7
  | .expectChecksum => 8
  | .expectStop => 9

/-- The FramingError codes, the values of LAST_ERR (R302); NONE is 0. -/
def framingCode : Option FramingCause → BitVec 4
  | none => 0
  | some .badStart => 1
  | some .lengthRange => 2
  | some .lengthMismatch => 3
  | some .badStart2 => 4
  | some .checksum => 5
  | some .badStop => 6

/-- The EncodingError codes (R302). -/
def encodingCode : EncodingCause → Nat
  | .payloadTooLarge => 1
  | .badVariant => 2
  | .badOperand => 3

/-- The UnsupportedRecordError codes (R302). -/
def unsupportedCode : UnsupportedCause → Nat
  | .reservedDif => 1
  | .lvarReserved => 2
  | .difeOverflow => 3
  | .vifeOverflow => 4
  | .truncated => 5
  | .vifUnsupported => 6
  | .unsupportedCi => 7
  | .headerTruncated => 8

/-- REMAINING (R25): W_REM in EXPECT_DATA, 0 elsewhere. -/
def Parser.remaining (p : Parser) : Byte := if p.st = .expectData then p.wRem else 0

/-- STATUS (R24), the pseudocode of the rule. -/
def Parser.status (p : Parser) : Word32 :=
  p.st.code.setWidth 32 ||| ((BitVec.ofBool p.frameReady).setWidth 32 <<< 4) |||
    ((BitVec.ofBool p.errEvent).setWidth 32 <<< 5) ||| ((framingCode p.lastErr).setWidth 32 <<< 8) |||
    (p.remaining.setWidth 32 <<< 16)

end Sys2Proof.Machine
end

