-- ==== Sys2Proof/Machine/Operands.lean ====
section
/-! DEFINITION. Operand forms: little-endian fields (00_scope.md R15, 20_memory.md R54, R55), the Frame operand's byte
layout and its check (30_encoding.md R71, 42_encoder.md R175), and the parameters looked up by VIF chain and by CI. -/

namespace Sys2Proof.Machine

open Sys2Proof.Config

/-- LE(bs), the unsigned little-endian value of a byte sequence (R15). -/
def leNat : List Byte → Nat
  | [] => 0
  | b :: bs => b.toNat + 256 * leNat bs

/-- LE of two bytes as a 16-bit field. -/
def le16 (b0 b1 : Byte) : BitVec 16 := b1 ++ b0

/-- LE of four bytes as a 32-bit field. -/
def le32 (b0 b1 b2 b3 : Byte) : BitVec 32 := b3 ++ b2 ++ b1 ++ b0

/-- The bytes of a 16-bit field, least significant first. -/
def bytes16 (v : BitVec 16) : List Byte := [v.extractLsb' 0 8, v.extractLsb' 8 8]

/-- The bytes of a 32-bit field, least significant first. -/
def bytes32 (v : BitVec 32) : List Byte :=
  [v.extractLsb' 0 8, v.extractLsb' 8 8, v.extractLsb' 16 8, v.extractLsb' 24 8]

/-- Bit 7 of a DIF, DIFE, VIF or VIFE byte: another one follows (30_encoding.md R87, R90, R92). -/
def extBit (x : Byte) : Bool := x.getLsbD 7

/-- The value bits of a VIF byte, `vif & 0x7F` (R92). -/
def vifValue (vif : Byte) : BitVec 7 := vif.extractLsb' 0 7

/-- The data field of a DIF byte (R87). -/
def dataField (dif : Byte) : BitVec 4 := dif.extractLsb' 0 4

/-- The byte layout of a Frame (R71): variant code, c, a, ci, n, data; a field the variant lacks is 0. -/
def frameLayout : Frame → List Byte
  | .single => [0, 0, 0, 0, 0]
  | .short c a => [1, c, a, 0, 0]
  | .control c a ci => [2, c, a, ci, 0]
  | .long c a ci data => [3, c, a, ci, BitVec.ofNat 8 data.length] ++ data

/-- GET_FRAME's result (R71): NONE is the single byte 0xFF. -/
def frameResultLayout : Option Frame → List Byte
  | none => [0xFF]
  | some f => frameLayout f

/-- `check_operand(f)` (R175), the three checks in its order; on success the Frame the operand lays out, the fields
its variant lacks ignored (R71). An operand too short to hold byte 4 has no byte count 5 + n (check 2); an empty one
has no variant code above 3 (95_test_vectors.md section 5, notes/assumptions/12.md). -/
def checkOperand : List Byte → Except EncodingCause Frame
  | [] => .error .badOperand
  | variant :: fields =>
    if 3 < variant.toNat then .error .badVariant
    else
      match fields with
      | c :: a :: ci :: n :: data =>
        if data.length ≠ n.toNat then .error .badOperand
        else if variant = 0 then .ok .single
        else if variant = 1 then .ok (.short c a)
        else if variant = 2 then .ok (.control c a ci)
        else if maxData < n.toNat then .error .payloadTooLarge
        else .ok (.long c a ci data)
      | _ => .error .badOperand

/-- P_CI_TABLE[ci] (43_records.md R200). -/
def headerKindOf (cfg : Params) (ci : Byte) : Option HeaderKind := cfg.ciTable.lookup ci

/-- P_VIF_SUPPORTED (44_values.md R268): the default refuses the one reserved primary code. -/
def vifSupported (cfg : Params) (vif : Byte) (vife : List Byte) : Bool :=
  match cfg.vifSupportedAt.lookup (vif, vife) with
  | some b => b
  | none => vifValue vif != 0x6F#7

end Sys2Proof.Machine
end

