-- ==== Sys2Proof/Machine/Ops.lean ====
section
/-! DEFINITION. The shared operations over the parser's registers: the checksum, PUSH_BYTE's prologue, the error entry
and frame completion, the ten arms, PUSH_BYTE and PUSH_BUF (41_parser.md), RESET, and answering a command. -/

namespace Sys2Proof.Machine

open Sys2Proof.Config

/-! ### Checksum (40_checksum.md) -/

/-- CHECKSUM's loop: the 8-bit sum of a byte sequence (R100). -/
def byteSum (bs : List Byte) : Byte := bs.foldl (fun s b => s + b) 0

/-- `frame_sum` (R102): the checksum byte of a frame; the single-character frame has none. -/
def frameSum : Frame → Option Byte
  | .single => none
  | .short c a => some (c + a)
  | .control c a ci => some (c + a + ci)
  | .long c a ci data => some (c + a + ci + byteSum data)

/-! ### Flags and the two ends of a frame -/

/-- What every PUSH_BYTE does before its arm (R119): an unconsumed frame is dropped, the step's error flag cleared. -/
def Parser.prologue (p : Parser) : Parser := { p with frameReady := false, errEvent := false }

/-- `record_error(cause)` (60_exceptions.md R306), the block's one error entry: three registers, every other one keeps
its value. No register saves anything, no handler runs and there is no return from it (R301, R307). -/
def Parser.recordError (cause : FramingCause) (p : Parser) : Parser :=
  { p with errEvent := true, lastErr := some cause, st := .expectStart }

/-- `complete_frame(f)` (R131). -/
def Parser.completeFrame (f : Frame) (p : Parser) : Parser :=
  { p with fr := f, frameReady := true, st := .expectStart }

/-! ### The arms (R120 to R129) -/

/-- The first byte 0xE5 (R120). -/
def Parser.beginSingle (p : Parser) : Parser := p.completeFrame .single

/-- The first byte 0x10 (R120). -/
def Parser.beginShort (p : Parser) : Parser := { p with wKind := .short, st := .expectControl }

/-- The first byte 0x68 (R120). -/
def Parser.beginLong (p : Parser) : Parser := { p with wKind := .long, st := .expectLength }

/-- Arm EXPECT_START (R120). -/
def Parser.armStart (b : Byte) (p : Parser) : Parser :=
  if b = ackByte then p.beginSingle
  else if b = startShort then p.beginShort
  else if b = startLong then p.beginLong
  else p.recordError .badStart

/-- Arm EXPECT_LENGTH (R121). -/
def Parser.armLength (b : Byte) (p : Parser) : Parser :=
  if b.toNat < 3 then p.recordError .lengthRange else { p with wLen := b, st := .expectLengthRepeat }

/-- Arm EXPECT_LENGTH_REPEAT (R122). -/
def Parser.armLengthRepeat (cfg : Params) (b : Byte) (p : Parser) : Parser :=
  if b ≠ p.wLen then p.recordError .lengthMismatch
  else if cfg.longStart2 then { p with st := .expectStart2 }
  else { p with st := .expectControl }

/-- Arm EXPECT_START2 (R123). -/
def Parser.armStart2 (b : Byte) (p : Parser) : Parser :=
  if b ≠ startLong then p.recordError .badStart2 else { p with st := .expectControl }

/-- Arm EXPECT_CONTROL (R124): any C value is taken, the running checksum starts here. -/
def Parser.armControl (b : Byte) (p : Parser) : Parser := { p with wC := b, wSum := b, st := .expectAddress }

/-- Arm EXPECT_ADDRESS (R125). -/
def Parser.armAddress (b : Byte) (p : Parser) : Parser :=
  { p with wA := b, wSum := p.wSum + b,
           st := if p.wKind = .short then .expectChecksum else .expectControlInfo }

/-- Arm EXPECT_CONTROL_INFO (R126). W_LEN - 3 does not wrap in any state a run reaches (10_state.md R32;
notes/assumptions/18.md). -/
def Parser.armControlInfo (b : Byte) (p : Parser) : Parser :=
  { p with wCI := b, wSum := p.wSum + b, wRem := p.wLen - 3, wIdx := 0,
           st := if p.wLen - 3 = 0 then .expectChecksum else .expectData }

/-- Arm EXPECT_DATA (R127). BUF has the indices 0 to 251 (20_memory.md R51): a write past them faults. -/
def Parser.armData (b : Byte) (p : Parser) : Except Fault Parser :=
  if h : p.wIdx.toNat < 252 then
    .ok { p with buf := p.buf.set p.wIdx.toNat b h, wIdx := p.wIdx + 1, wSum := p.wSum + b, wRem := p.wRem - 1,
                 st := if p.wRem - 1 = 0 then .expectChecksum else .expectData }
  else .error .bufIndex

/-- Arm EXPECT_CHECKSUM (R128). -/
def Parser.armChecksum (b : Byte) (p : Parser) : Parser :=
  if b ≠ p.wSum then p.recordError .checksum else { p with st := .expectStop }

/-- BUF[0 .. W_LEN-4]: the data of the frame in progress (R129). -/
def Parser.frameData (p : Parser) : List Byte := p.buf.toList.take (p.wLen.toNat - 3)

/-- The frame that the stop byte completes (R129). -/
def Parser.pendingFrame (p : Parser) : Frame :=
  if p.wKind = .short then .short p.wC p.wA
  else if p.wLen = 3 then .control p.wC p.wA p.wCI
  else .long p.wC p.wA p.wCI p.frameData

/-- Arm EXPECT_STOP (R129). -/
def Parser.armStop (b : Byte) (p : Parser) : Parser :=
  if b ≠ stopByte then p.recordError .badStop else p.completeFrame p.pendingFrame

/-- The arm that ST selects (R119): exactly one runs. -/
def Parser.arm (cfg : Params) (b : Byte) (p : Parser) : Except Fault Parser :=
  match p.st with
  | .expectStart => .ok (p.armStart b)
  | .expectLength => .ok (p.armLength b)
  | .expectLengthRepeat => .ok (p.armLengthRepeat cfg b)
  | .expectStart2 => .ok (p.armStart2 b)
  | .expectControl => .ok (p.armControl b)
  | .expectAddress => .ok (p.armAddress b)
  | .expectControlInfo => .ok (p.armControlInfo b)
  | .expectData => p.armData b
  | .expectChecksum => .ok (p.armChecksum b)
  | .expectStop => .ok (p.armStop b)

/-- PUSH_BYTE on the parser's registers (R119). -/
def Parser.pushByte (cfg : Params) (b : Byte) (p : Parser) : Except Fault Parser := p.prologue.arm cfg b

/-- PUSH_BUF's loop (R132): `k` bytes consumed and `errors` counted so far; it stops after the byte that completes a
frame. -/
def Parser.pushBuf (cfg : Params) : List Byte → Nat → Nat → Parser → Except Fault (Nat × Nat × Parser)
  | [], k, errors, p => .ok (k, errors, p)
  | b :: bs, k, errors, p =>
    match p.pushByte cfg b with
    | .error f => .error f
    | .ok q =>
      if q.frameReady then .ok (k + 1, errors + q.errEvent.toNat, q)
      else Parser.pushBuf cfg bs (k + 1) (errors + q.errEvent.toNat) q

/-- RESET on the parser's registers (R150): ST and the flags as given; the working registers, BUF and FR become
unspecified, so each is a free value of draw `n`. -/
def Parser.clear (n : Nat) : Parser :=
  { st := .expectStart,
    wKind := if freeKindLong n then .long else .short,
    wLen := freeByte n 0, wC := freeByte n 1, wA := freeByte n 2, wCI := freeByte n 3, wRem := freeByte n 4,
    wIdx := freeByte n 5, wSum := freeByte n 6, buf := freeBuf n, fr := freeFrame n,
    frameReady := false, errEvent := false, lastErr := none }

/-! ### Taking and answering a command -/

/-- The host issues commands after those already issued (00_scope.md R7, 20_memory.md R61). -/
def State.issue (ps : List Packet) (s : State) : State := { s with pending := s.pending ++ ps }

/-- The command `p` is the next one the block takes. -/
def State.issueFirst (p : Packet) (s : State) : State := { s with pending := p :: s.pending }

/-- The next command, and the state with it taken; `none` where the host has issued none. -/
def State.takeCommand (s : State) : Option (Packet × State) :=
  match s.pending with
  | [] => none
  | p :: ps => some (p, { s with pending := ps })

/-- A command completes with the result `r` (00_scope.md R17). -/
def State.respond (r : Result) (s : State) : State := { s with results := s.results ++ [r] }

/-- A command completes and has changed nothing but its own result: the commands of 20_memory.md R59. -/
def answer (r : Result) (s : State) : Host.Outcome State Fault Refusal := .next (s.respond r)

/-- A row of the parser's spaces: run where ST is `sel` (R119), on the parser's registers alone. -/
def whenExpecting (sel : PState) (f : Parser → Except Fault Parser) (s : State) :
    Host.Outcome State Fault Refusal :=
  if s.parser.st = sel then
    match f s.parser with
    | .ok p => .next { s with parser := p }
    | .error e => .fault e
  else .refused .notSelected

end Sys2Proof.Machine
end

