-- ==== Sys2Proof/Machine/Codec.lean ====
section
/-! DEFINITION. The Checksum/Framing Codec's commands (40_checksum.md) and the illegal command codes (30_encoding.md R72). -/

namespace Sys2Proof.Machine

open Sys2Proof.Config

/-- CHECKSUM (code 0x10, R100). -/
def execChecksum (bs : List Byte) (s : State) : Host.Outcome State Fault Refusal := answer (.sum (byteSum bs)) s

/-- The checks of VALIDATE_MARKERS in wire order (R103, D39); OK is `none`. -/
def validateMarkers (start stop lenA lenB : Byte) : Option FramingCause :=
  if start = ackByte then none
  else if start ≠ startShort ∧ start ≠ startLong then some .badStart
  else if start = startLong ∧ lenA ≠ lenB then some .lengthMismatch
  else if stop ≠ stopByte then some .badStop
  else none

/-- VALIDATE_MARKERS (code 0x11, R103): the error is a result, LAST_ERR and ERR_EVENT are not written. -/
def execValidateMarkers (start stop lenA lenB : Byte) (s : State) : Host.Outcome State Fault Refusal :=
  answer (.markers (validateMarkers start stop lenA lenB)) s

/-- A reserved command code (R72): the result is ILLEGAL_COMMAND, the run's refusal mark is set
(70_reset_and_hazards.md R352 part 4), and no state of the block changes. -/
def execIllegalCommand (_code : Byte) (s : State) : Host.Outcome State Fault Refusal :=
  .next { s.respond .illegalCommand with refusalMark := true }

end Sys2Proof.Machine
end

