-- ==== Sys2Proof/Machine/Values.lean ====
section
/-! DEFINITION. Value representations (44_values.md): integers, real, packed BCD, the LVAR forms, and the derived views of
header fields and VIF chains. -/

namespace Sys2Proof.Machine

open Sys2Proof.Config

/-! ### Integers and BCD -/

/-- `int_of(vb)` (R252). -/
def intOf (cfg : Params) (vb : List Byte) : Int :=
  if cfg.intSigned ∧ (vb.getLast?.getD 0).getLsbD 7 then (leNat vb : Int) - 2 ^ (8 * vb.length) else (leNat vb : Int)

/-- The digits of packed BCD bytes, digit 0 first: each byte's low nibble, then its high one (R254). -/
def bcdDigits : List Byte → List Nat
  | [] => []
  | b :: bs => b.toNat % 16 :: b.toNat / 16 :: bcdDigits bs

/-- Σ dig[m]·10^m (R254). -/
def decimalOf : List Nat → Nat
  | [] => 0
  | d :: ds => d + 10 * decimalOf ds

/-- Every digit is a decimal one. -/
def allDecimal (ds : List Nat) : Bool := ds.all fun d => decide (d ≤ 9)

/-- `bcd_of(vb)` (R254, R255, R256): a top digit of 0xF is the sign and counts as 0. -/
def bcdOf (vb : List Byte) : Value :=
  let digits := bcdDigits vb
  let negative := digits.getLast? = some 15
  let digits := if negative then digits.dropLast ++ [0] else digits
  if allDecimal digits then .bcd (if negative then -(decimalOf digits : Int) else (decimalOf digits : Int))
  else .bcdInvalid vb

/-! ### LVAR (R258 to R261) -/

/-- `lvar_reserved(lv)` (R261). -/
def lvarReserved (cfg : Params) (lv : Byte) : Bool :=
  isReservedLvar lv || (!cfg.lvarExtended && decide (0xC0 ≤ lv.toNat))

/-- `lvar_count(lv)` (R261). -/
def lvarCount (lv : Byte) : Nat := if lv.toNat ≤ 0xBF then lv.toNat else lv.toNat % 16

/-- LVAR BCD (R259): no sign nibble, the sign is in LVAR. -/
def lvarBcd (negative : Bool) (bs : List Byte) : Value :=
  if allDecimal (bcdDigits bs) then
    .bcd (if negative then -(decimalOf (bcdDigits bs) : Int) else (decimalOf (bcdDigits bs) : Int))
  else .bcdInvalid bs

/-- The value of an LVAR field: `lv` is the LVAR byte, `bs` the bytes after it (R258, R259, R260). -/
def lvarValueOf (cfg : Params) (lv : Byte) (bs : List Byte) : Value :=
  if lv.toNat ≤ 0xBF then .text bs.reverse
  else if lv.toNat ≤ 0xCF then lvarBcd false bs
  else if lv.toNat ≤ 0xDF then lvarBcd true bs
  else .int (intOf cfg bs)

/-- `lvar_value(vb)` (R250): vb holds the LVAR byte first. -/
def lvarValue (cfg : Params) : List Byte → Value
  | [] => .none
  | lv :: bs => lvarValueOf cfg lv bs

/-! ### Dispatch on the data field (30_encoding.md R88, R250) -/

/-- WIDTH[df]: the value bytes of a data field other than 0xD and 0xF (43_records.md R218). -/
def valueWidth (df : BitVec 4) : Nat :=
  match df with
  | 0x1#4 => 1
  | 0x2#4 => 2
  | 0x3#4 => 3
  | 0x4#4 => 4
  | 0x5#4 => 4
  | 0x6#4 => 6
  | 0x7#4 => 8
  | 0x9#4 => 1
  | 0xA#4 => 2
  | 0xB#4 => 3
  | 0xC#4 => 4
  | 0xE#4 => 6
  | _ => 0

/-- `decode_value(df, vb, vif)` (R250). -/
def decodeValue (cfg : Params) (df : BitVec 4) (vb : List Byte) (vif : Byte) : Value :=
  if vifValue vif = 0x7F#7 then .manufRaw vb
  else
    match df with
    | 0x1#4 => .int (intOf cfg vb)
    | 0x2#4 => .int (intOf cfg vb)
    | 0x3#4 => .int (intOf cfg vb)
    | 0x4#4 => .int (intOf cfg vb)
    | 0x5#4 => .real (BitVec.ofNat 32 (leNat vb))
    | 0x6#4 => .int (intOf cfg vb)
    | 0x7#4 => .int (intOf cfg vb)
    | 0x9#4 => bcdOf vb
    | 0xA#4 => bcdOf vb
    | 0xB#4 => bcdOf vb
    | 0xC#4 => bcdOf vb
    | 0xD#4 => lvarValue cfg vb
    | 0xE#4 => bcdOf vb
    | _ => .none

/-! ### Units (R269, R270) -/

/-- The time base nn = 0 .. 3 (R269). -/
def timeBaseOf (nn : Nat) : TimeBase :=
  match nn with
  | 0 => .seconds
  | 1 => .minutes
  | 2 => .hours
  | _ => .days

/-- The default P_UNIT_OF: it reads v = vif & 0x7F only (R269). -/
def defaultUnitOf (v : Nat) : Option (UnitName × Int) :=
  let nnn : Int := (v % 8 : Nat)
  let nn : Int := (v % 4 : Nat)
  if v ≤ 0x07 then some (.wh, nnn - 3)
  else if v ≤ 0x0F then some (.j, nnn)
  else if v ≤ 0x17 then some (.m3, nnn - 6)
  else if v ≤ 0x1F then some (.kg, nnn - 3)
  else if v ≤ 0x23 then some (.onTime (timeBaseOf (v % 4)), 0)
  else if v ≤ 0x27 then some (.operatingTime (timeBaseOf (v % 4)), 0)
  else if v ≤ 0x2F then some (.w, nnn - 3)
  else if v ≤ 0x37 then some (.jPerH, nnn)
  else if v ≤ 0x3F then some (.m3PerH, nnn - 6)
  else if v ≤ 0x47 then some (.m3PerMin, nnn - 7)
  else if v ≤ 0x4F then some (.m3PerS, nnn - 9)
  else if v ≤ 0x57 then some (.kgPerH, nnn - 3)
  else if v ≤ 0x5B then some (.celsiusFlow, nn - 3)
  else if v ≤ 0x5F then some (.celsiusReturn, nn - 3)
  else if v ≤ 0x63 then some (.kelvinDiff, nn - 3)
  else if v ≤ 0x67 then some (.celsiusExternal, nn - 3)
  else if v ≤ 0x6B then some (.bar, nn - 3)
  else if v = 0x6C then some (.date, 0)
  else if v = 0x6D then some (.dateTime, 0)
  else if v = 0x6E then some (.hcaUnits, 0)
  else if v = 0x6F then none
  else if v ≤ 0x73 then some (.averagingDuration (timeBaseOf (v % 4)), 0)
  else if v ≤ 0x77 then some (.actualityDuration (timeBaseOf (v % 4)), 0)
  else if v = 0x78 then some (.fabricationNo, 0)
  else if v = 0x79 then some (.enhancedId, 0)
  else if v = 0x7A then some (.busAddress, 0)
  else if v = 0x7C then some (.plainText, 0)
  else none

/-- P_UNIT_OF(vif, vife) (R269). -/
def unitOf (cfg : Params) (vif : Byte) (vife : List Byte) : Option (UnitName × Int) :=
  match cfg.unitAt.lookup (vif, vife) with
  | some u => u
  | none => defaultUnitOf (vifValue vif).toNat

/-! ### DIF metadata (30_encoding.md R91, 43_records.md R221) -/

/-- Σ (e[j][3:0] << (4·j)) over the chain, first DIFE lowest. -/
def difeStorage : List Byte → Nat
  | [] => 0
  | e :: es => e.toNat % 16 + 16 * difeStorage es

/-- Σ (e[j][5:4] << (2·j)). -/
def difeTariff : List Byte → Nat
  | [] => 0
  | e :: es => e.toNat / 16 % 4 + 4 * difeTariff es

/-- Σ (e[j][6] << j). -/
def difeSubunit : List Byte → Nat
  | [] => 0
  | e :: es => e.toNat / 64 % 2 + 2 * difeSubunit es

/-- The storage number of a record: d[6] below the DIFEs' bits (R91). -/
def storageOf (dif : Byte) (dife : List Byte) : Nat := dif.toNat / 64 % 2 + 2 * difeStorage dife

/-! ### Header views (43_records.md R203) -/

/-- id_decimal (R265); INVALID is `none`. -/
def idDecimalOf (id : BitVec 32) : Option Nat :=
  let digits := bcdDigits (bytes32 id)
  if allDecimal digits then some (decimalOf digits) else none

/-- `letters(man)` (R263). -/
def lettersOf (man : BitVec 16) : Letters :=
  { x := 0x40 + (man.extractLsb' 10 5).setWidth 8,
    y := 0x40 + (man.extractLsb' 5 5).setWidth 8,
    z := 0x40 + (man.extractLsb' 0 5).setWidth 8 }

/-- `pack(x, y, z)` (R264). -/
def packLetters (l : Letters) : BitVec 16 :=
  ((l.x - 0x40).setWidth 16 <<< 10) ||| ((l.y - 0x40).setWidth 16 <<< 5) ||| (l.z - 0x40).setWidth 16

/-- The medium's name (R266). -/
def mediumOf (med : Byte) : Medium :=
  match med with
  | 0x00#8 => .other
  | 0x01#8 => .oil
  | 0x02#8 => .electricity
  | 0x03#8 => .gas
  | 0x04#8 => .heatOutlet
  | 0x05#8 => .steam
  | 0x06#8 => .hotWater
  | 0x07#8 => .water
  | 0x08#8 => .heatCostAllocator
  | 0x09#8 => .compressedAir
  | 0x0A#8 => .coolingOutlet
  | 0x0B#8 => .coolingInlet
  | 0x0C#8 => .heatInlet
  | 0x0D#8 => .heatCooling
  | 0x0E#8 => .busSystem
  | 0x0F#8 => .unknownNamed
  | 0x16#8 => .coldWater
  | 0x17#8 => .dualWater
  | 0x18#8 => .pressure
  | 0x19#8 => .adConverter
  | raw => .unknownMedium raw

/-- `parse_header(ci, hb)` (43_records.md R201) for the header kind of the CI; `hb` is the hl header bytes. -/
def parseHeader (kind : HeaderKind) (hb : List Byte) : Header :=
  match kind, hb with
  | .h0, _ => .h0
  | .h4, [acc, st, s0, s1] => .h4 { acc := acc, st := st, sig := le16 s0 s1 }
  | .h12, [i0, i1, i2, i3, m0, m1, ver, med, acc, st, s0, s1] =>
    .h12 { id := le32 i0 i1 i2 i3, man := le16 m0 m1, ver := ver, med := med, acc := acc, st := st, sig := le16 s0 s1,
           idDecimal := idDecimalOf (le32 i0 i1 i2 i3), manLetters := lettersOf (le16 m0 m1),
           mediumName := mediumOf med }
  | _, _ => .absent

end Sys2Proof.Machine
end

