-- ==== Sys2Proof/Machine/Records.lean ====
section
/-! DEFINITION. The Data Record Decoder's operations (43_records.md R209 to R224): one operation for each place a byte of
a data block can stand (DIF, DIFE, VIF, VIFE, LVAR), on the working context `Drd`. Each reads one byte, and after a
VIF, VIFE or LVAR byte whatever the rule puts right behind it (plain text, value bytes). -/

namespace Sys2Proof.Machine

open Sys2Proof.Config

/-- The loop's variables before its first iteration: `decode_from(p, s)` at offset `s` of `data` (R209). -/
def Drd.opening (data : List Byte) (s : Nat) : Drd :=
  { Drd.idle with phase := .dif, pos := s, rest := data.drop s, start := s }

/-- Byte `x` at `pos` has been read. -/
def Drd.feed (x : Byte) (d : Drd) : Drd := { d with taken := d.taken ++ [x], pos := d.pos + 1 }

/-- The next `n` bytes have been read. -/
def Drd.skip (n : Nat) (d : Drd) : Drd :=
  { d with taken := d.taken ++ d.rest.take n, rest := d.rest.drop n, pos := d.pos + n }

/-- `stop(cause)` (R223): the current item and everything after it is one OPAQUE item, and the loop ends. -/
def Drd.stop (cause : UnsupportedCause) (d : Drd) : Drd :=
  { d with items := d.items ++ [.opaqueBytes d.start cause (d.taken ++ d.rest)],
           errors := d.errors ++ [(cause, d.start)],
           phase := .done, rest := [], taken := [], pos := d.pos + d.rest.length }

/-- An item is complete, and the loop goes on at the byte after it. -/
def Drd.emit (it : Item) (d : Drd) : Drd :=
  { Drd.idle with phase := .dif, pos := d.pos, rest := d.rest, start := d.pos, items := d.items ++ [it],
                  errors := d.errors }

/-- MANUF_DATA: the DIF `x` has been read; every byte after it belongs to the item, and the loop ends (R212). -/
def Drd.manufData (x : Byte) (d : Drd) : Drd :=
  { d with items := d.items ++ [.manufData d.start x d.rest],
           phase := .done, rest := [], taken := [], pos := d.pos + d.rest.length }

/-- The RECORD of the parts read so far and its value bytes (R210, R220, R221). -/
def Drd.recordOf (cfg : Params) (vb : List Byte) (d : Drd) : Record :=
  { offset := d.start, dif := d.dif, dife := d.dife, vif := d.vif, textWire := d.text, vife := d.vife, vbytes := vb,
    function := d.dif.extractLsb' 4 2, storage := storageOf d.dif d.dife, tariff := difeTariff d.dife,
    subunit := difeSubunit d.dife, value := decodeValue cfg (dataField d.dif) vb d.vif,
    unit := unitOf cfg d.vif d.vife }

/-- The RECORD / OPAQUE choice for a complete record with value bytes `vb` (R222). -/
def Drd.finish (cfg : Params) (vb : List Byte) (d : Drd) : Drd :=
  if vifValue d.vif = 0x7F#7 ∨ vifSupported cfg d.vif d.vife = true then d.emit (.record (d.recordOf cfg vb))
  else
    { d.emit (.opaqueBytes d.start .vifUnsupported d.taken) with
      errors := d.errors ++ [(.vifUnsupported, d.start)] }

/-- The `n` value bytes that follow, `before` them the LVAR byte where there is one (R218, R219). -/
def Drd.takeValue (cfg : Params) (before : List Byte) (n : Nat) (d : Drd) : Drd :=
  if d.rest.length < n then d.stop .truncated
  else (d.skip n).finish cfg (before ++ d.rest.take n)

/-- `plain_text(vif)` (R216): `none` where it runs `stop(TRUNCATED)`. -/
def Drd.plainText (d : Drd) : Option Drd :=
  if vifValue d.vif ≠ 0x7C#7 then some d
  else
    match d.rest with
    | [] => none
    | k :: more =>
      if more.length < k.toNat then none
      else some { (d.skip (1 + k.toNat)) with text := more.take k.toNat }

/-- After the VIFE chain and the plain text: the value, whose length the data field gives, or LVAR (R218). -/
def Drd.toValue (cfg : Params) (d : Drd) : Drd :=
  if dataField d.dif = 0xD#4 then { d with phase := .lvar } else d.takeValue cfg [] (valueWidth (dataField d.dif))

/-- The VIFE chain has ended: the plain text where P_PLAINTEXT_POS puts it there, then the value (R209). -/
def Drd.endChain (cfg : Params) (d : Drd) : Drd :=
  if cfg.plainTextPos = .afterVifeChain then
    match d.plainText with
    | none => d.stop .truncated
    | some e => e.toValue cfg
  else d.toValue cfg

/-- A VIF or VIFE byte with EXT = `ext` has been read: another VIFE, or the end of the chain (R217). -/
def Drd.afterVif (cfg : Params) (ext : Bool) (d : Drd) : Drd :=
  if ext then { d with phase := .vife } else d.endChain cfg

/-! ### The byte read, by its place -/

/-- A DIF byte (R211 to R214; 44_values.md R257 for 0xE). -/
def Drd.readDif (cfg : Params) (x : Byte) (d : Drd) : Drd :=
  let e := d.feed x
  if x = 0x2F#8 then e.emit (.fill d.start)
  else if x = 0x0F#8 ∨ x = 0x1F#8 then e.manufData x
  else if x = 0x7F#8 then e.emit (.globalReadout d.start)
  else if dataField x = 0xF#4 then e.stop .reservedDif
  else if dataField x = 0xE#4 ∧ cfg.bcd12 = false then e.stop .reservedDif
  else { e with dif := x, phase := if extBit x then .dife else .vif }

/-- A DIFE byte (R215). -/
def Drd.readDife (cfg : Params) (x : Byte) (d : Drd) : Drd :=
  let e := d.feed x
  if d.dife.length = cfg.maxDife then e.stop .difeOverflow
  else { e with dife := d.dife ++ [x], phase := if extBit x then .dife else .vif }

/-- A VIF byte (R216). -/
def Drd.readVif (cfg : Params) (x : Byte) (d : Drd) : Drd :=
  let e := { d.feed x with vif := x }
  if cfg.plainTextPos = .afterVif then
    match e.plainText with
    | none => e.stop .truncated
    | some f => f.afterVif cfg (extBit x)
  else e.afterVif cfg (extBit x)

/-- A VIFE byte (R217). -/
def Drd.readVife (cfg : Params) (x : Byte) (d : Drd) : Drd :=
  let e := d.feed x
  if d.vife.length = cfg.maxVife then e.stop .vifeOverflow
  else { e with vife := d.vife ++ [x] }.afterVif cfg (extBit x)

/-- The LVAR byte (R218; 44_values.md R261). -/
def Drd.readLvar (cfg : Params) (x : Byte) (d : Drd) : Drd :=
  let e := d.feed x
  if lvarReserved cfg x then e.stop .lvarReserved else e.takeValue cfg [x] (lvarCount x)

/-! ### The loop -/

/-- One byte of the loop of R209: read where the phase says. Out of bytes, the loop ends at a DIF's place and
otherwise runs `stop(TRUNCATED)` (R215, R216, R218). -/
def Drd.next (cfg : Params) (d : Drd) : Drd :=
  match d.phase, d.rest with
  | .idle, _ => d
  | .done, _ => d
  | .dif, [] => { d with phase := .done }
  | .dife, [] => d.stop .truncated
  | .vif, [] => d.stop .truncated
  | .vife, [] => d.stop .truncated
  | .lvar, [] => d.stop .truncated
  | .dif, x :: more => { d with rest := more }.readDif cfg x
  | .dife, x :: more => { d with rest := more }.readDife cfg x
  | .vif, x :: more => { d with rest := more }.readVif cfg x
  | .vife, x :: more => { d with rest := more }.readVife cfg x
  | .lvar, x :: more => { d with rest := more }.readLvar cfg x

/-- `n` bytes of the loop. -/
def Drd.run (cfg : Params) : Nat → Drd → Drd
  | 0, d => d
  | n + 1, d => Drd.run cfg n (d.next cfg)

/-- The context at the end of `decode_from(data, s)`: every byte of the block takes at most one turn and the end of
the block one more. -/
def Drd.decodeFrom (cfg : Params) (data : List Byte) (s : Nat) : Drd :=
  Drd.run cfg (data.length + 1) (Drd.opening data s)

/-! ### Results (R206, R207, R208, R209) -/

/-- dataBlockCount: the items that are not FILL (R207). -/
def blockCount (items : List Item) : Nat :=
  (items.filter fun | .fill _ => false | _ => true).length

/-- Some MANUF_DATA item has DIF 0x1F (R208, R209). -/
def hasMore (items : List Item) : Bool :=
  items.any fun | .manufData _ dif _ => dif == 0x1F#8 | _ => false

/-- isLastPackage (R208). -/
def lastPackage (cfg : Params) (ci : Byte) (items : List Item) : Bool :=
  match cfg.moreSource with
  | .dif1F => !hasMore items
  | .ciMask m => ci &&& m == 0

/-- `UDR(ci, header, items, raw_tail, errors)` (R200, R206). -/
def udr (cfg : Params) (ci : Byte) (header : Header) (items : List Item) (rawTail : List Byte)
    (errors : List (UnsupportedCause × Nat)) : UserDataResponse :=
  { ci := ci, header := header, items := items, rawTail := rawTail, dataBlockCount := blockCount items,
    isLastPackage := lastPackage cfg ci items, errors := errors }

/-- The RecordList of a decoded block (R209). -/
def recordList (items : List Item) (errors : List (UnsupportedCause × Nat)) : RecordList :=
  { items := items, dataBlockCount := blockCount items, more := hasMore items, errors := errors }

end Sys2Proof.Machine
end

