-- ==== Sys2Proof/Machine/Decoder.lean ====
section
/-! DEFINITION. The Data Record Decoder's commands (43_records.md R200, R209), and the rows that are bytes of a data
block (DIF, DIFE, VIF, VIFE, LVAR): each row has the effect of the decoder reading that byte, where the decoder is
at such a byte's place. -/

namespace Sys2Proof.Machine

open Sys2Proof.Config

/-! ### Commands -/

/-- The working context runs `decode_from(data, off)` (R209). -/
def State.decodeBlock (data : List Byte) (off : Nat) (s : State) : State :=
  { s with drd := Drd.decodeFrom s.params data off }

/-- The command ends and its working context with it: the unit holds no state between commands (10_state.md R20). -/
def State.endDecode (s : State) : State := { s with drd := Drd.idle }

/-- DECODE_PAYLOAD (code 0x30, R200, R204, R205). -/
def execDecodePayload (ci : Byte) (data : List Byte) (s : State) : Host.Outcome State Fault Refusal :=
  match headerKindOf s.params ci with
  | none => answer (.response (udr s.params ci .absent [] data [(.unsupportedCi, 0)])) s.endDecode
  | some kind =>
    if data.length < kind.length then
      answer (.response (udr s.params ci .absent [] data [(.headerTruncated, 0)])) s.endDecode
    else
      let t := s.decodeBlock data kind.length
      answer
        (.response (udr s.params ci (parseHeader kind (data.take kind.length)) t.drd.items [] t.drd.errors))
        t.endDecode

/-- DECODE_RECORDS (code 0x31, R209). -/
def execDecodeRecords (data : List Byte) (s : State) : Host.Outcome State Fault Refusal :=
  let t := s.decodeBlock data 0
  answer (.records (recordList t.drd.items t.drd.errors)) t.endDecode

/-! ### Rows -/

/-- A row of the decoder's spaces: run where the decoder is in `phase`, on its working context alone. -/
def whenReading (phase : DrdPhase) (f : Drd → Drd) (s : State) : Host.Outcome State Fault Refusal :=
  if s.drd.phase = phase then .next { s with drd := f s.drd } else .refused .notSelected

/-! ### dif8 -/

/-- A DIF byte where one is expected. -/
def readDif (x : Byte) (s : State) : Host.Outcome State Fault Refusal :=
  whenReading .dif (Drd.readDif s.params x) s

/-- DIF_MANUF_DATA: the rest of the block is one MANUF_DATA item (R212). -/
def execDifManufData (s : State) : Host.Outcome State Fault Refusal := readDif 0x0F s

/-- DIF_MANUF_DATA_MORE: as DIF_MANUF_DATA, and more records follow in the next telegram (R212, R208). -/
def execDifManufDataMore (s : State) : Host.Outcome State Fault Refusal := readDif 0x1F s

/-- DIF_IDLE_FILL: a FILL item (R211). -/
def execDifIdleFill (s : State) : Host.Outcome State Fault Refusal := readDif 0x2F s

/-- DIF_GLOBAL_READOUT: a GLOBAL_READOUT item (R213). -/
def execDifGlobalReadout (s : State) : Host.Outcome State Fault Refusal := readDif 0x7F s

/-- DIF_RESERVED: the remainder is OPAQUE with RESERVED_DIF (R214). -/
def execDifReserved (high : BitVec 4) (s : State) : Host.Outcome State Fault Refusal :=
  readDif (lvarByte high 0xF) s

/-- DIF_NO_DATA (44_values.md R251). -/
def execDifNoData (h : DifHead) (s : State) : Host.Outcome State Fault Refusal := readDif (h.byte 0x0) s

/-- DIF_INT8 (R252). -/
def execDifInt8 (h : DifHead) (s : State) : Host.Outcome State Fault Refusal := readDif (h.byte 0x1) s

/-- DIF_INT16 (R252). -/
def execDifInt16 (h : DifHead) (s : State) : Host.Outcome State Fault Refusal := readDif (h.byte 0x2) s

/-- DIF_INT24 (R252). -/
def execDifInt24 (h : DifHead) (s : State) : Host.Outcome State Fault Refusal := readDif (h.byte 0x3) s

/-- DIF_INT32 (R252). -/
def execDifInt32 (h : DifHead) (s : State) : Host.Outcome State Fault Refusal := readDif (h.byte 0x4) s

/-- DIF_REAL32 (R253). -/
def execDifReal32 (h : DifHead) (s : State) : Host.Outcome State Fault Refusal := readDif (h.byte 0x5) s

/-- DIF_INT48 (R252). -/
def execDifInt48 (h : DifHead) (s : State) : Host.Outcome State Fault Refusal := readDif (h.byte 0x6) s

/-- DIF_INT64 (R252). -/
def execDifInt64 (h : DifHead) (s : State) : Host.Outcome State Fault Refusal := readDif (h.byte 0x7) s

/-- DIF_SELECTION (R251). -/
def execDifSelection (h : DifHead) (s : State) : Host.Outcome State Fault Refusal := readDif (h.byte 0x8) s

/-- DIF_BCD2 (R254). -/
def execDifBcd2 (h : DifHead) (s : State) : Host.Outcome State Fault Refusal := readDif (h.byte 0x9) s

/-- DIF_BCD4 (R254). -/
def execDifBcd4 (h : DifHead) (s : State) : Host.Outcome State Fault Refusal := readDif (h.byte 0xA) s

/-- DIF_BCD6 (R254). -/
def execDifBcd6 (h : DifHead) (s : State) : Host.Outcome State Fault Refusal := readDif (h.byte 0xB) s

/-- DIF_BCD8 (R254). -/
def execDifBcd8 (h : DifHead) (s : State) : Host.Outcome State Fault Refusal := readDif (h.byte 0xC) s

/-- DIF_LVAR (R258). -/
def execDifLvar (h : DifHead) (s : State) : Host.Outcome State Fault Refusal := readDif (h.byte 0xD) s

/-- DIF_BCD12 (R257; RESERVED_DIF where P_BCD12 is false). -/
def execDifBcd12 (h : DifHead) (s : State) : Host.Outcome State Fault Refusal := readDif (h.byte 0xE) s

/-! ### dife8 -/

/-- DIFE (R215; 30_encoding.md R90, R91). -/
def execDife (ext subunit : Bool) (tariff : BitVec 2) (storage : BitVec 4) (s : State) :
    Host.Outcome State Fault Refusal :=
  whenReading .dife (Drd.readDife s.params (difeByte ext subunit tariff storage)) s

/-! ### vif8 -/

/-- A VIF byte where one is expected. -/
def readVif (x : Byte) (s : State) : Host.Outcome State Fault Refusal :=
  whenReading .vif (Drd.readVif s.params x) s

/-- VIF_UNSUPPORTED_6F: its record is OPAQUE under the default P_VIF_SUPPORTED (44_values.md R268, R222). -/
def execVifUnsupported6F (ext : Bool) (s : State) : Host.Outcome State Fault Refusal := readVif (vifByte ext 0x6F) s

/-- VIF_EXT_TABLE_FB: the true code is in the first VIFE (R216, R217). -/
def execVifExtTableFB (ext : Bool) (s : State) : Host.Outcome State Fault Refusal := readVif (vifByte ext 0x7B) s

/-- VIF_PLAIN_TEXT: a length byte and the characters follow at P_PLAINTEXT_POS (R216). -/
def execVifPlainText (ext : Bool) (s : State) : Host.Outcome State Fault Refusal := readVif (vifByte ext 0x7C) s

/-- VIF_EXT_TABLE_FD: the true code is in the first VIFE (R216, R217). -/
def execVifExtTableFD (ext : Bool) (s : State) : Host.Outcome State Fault Refusal := readVif (vifByte ext 0x7D) s

/-- VIF_ANY: no structural effect (R216). -/
def execVifAny (ext : Bool) (s : State) : Host.Outcome State Fault Refusal := readVif (vifByte ext 0x7E) s

/-- VIF_MANUFACTURER: its RECORD keeps the value bytes raw (R222). -/
def execVifManufacturer (ext : Bool) (s : State) : Host.Outcome State Fault Refusal := readVif (vifByte ext 0x7F) s

/-- VIF_PRIMARY (R216, 44_values.md R269). -/
def execVifPrimary (ext : Bool) (value : BitVec 7) (s : State) : Host.Outcome State Fault Refusal :=
  readVif (vifByte ext value) s

/-! ### vife8 -/

/-- VIFE: carried raw, it changes neither value nor unit (R217, 44_values.md R270). -/
def execVife (ext : Bool) (value : BitVec 7) (s : State) : Host.Outcome State Fault Refusal :=
  whenReading .vife (Drd.readVife s.params (vifByte ext value)) s

/-! ### lvar8 -/

/-- An LVAR byte where one is expected. -/
def readLvar (x : Byte) (s : State) : Host.Outcome State Fault Refusal :=
  whenReading .lvar (Drd.readLvar s.params x) s

/-- LVAR_TEXT (44_values.md R258). -/
def execLvarText (length : Byte) (s : State) : Host.Outcome State Fault Refusal := readLvar length s

/-- LVAR_BCD_POS (R259; LVAR_RESERVED where P_LVAR_EXTENDED is false). -/
def execLvarBcdPos (count : BitVec 4) (s : State) : Host.Outcome State Fault Refusal := readLvar (lvarByte 0xC count) s

/-- LVAR_RESERVED (R261: the remainder is OPAQUE). -/
def execLvarReserved (lv : Byte) (s : State) : Host.Outcome State Fault Refusal := readLvar lv s

/-- LVAR_BCD_NEG (R259; LVAR_RESERVED where P_LVAR_EXTENDED is false). -/
def execLvarBcdNeg (count : BitVec 4) (s : State) : Host.Outcome State Fault Refusal := readLvar (lvarByte 0xD count) s

/-- LVAR_BINARY (R260; LVAR_RESERVED where P_LVAR_EXTENDED is false). -/
def execLvarBinary (count : BitVec 4) (s : State) : Host.Outcome State Fault Refusal := readLvar (lvarByte 0xE count) s

end Sys2Proof.Machine
end

