-- ==== Sys2Proof/Machine/Encoder.lean ====
section
/-! DEFINITION. The Encoder (42_encoder.md): frames to wire bytes, and decoded payloads back to data-block bytes. Both are
functions of their operand and the parameters. -/

namespace Sys2Proof.Machine

open Sys2Proof.Config

/-- The bytes before C of a control or long frame with length byte `len` (R173, R174; 30_encoding.md R73). -/
def longPrefix (cfg : Params) (len : Byte) : List Byte :=
  [startLong, len, len] ++ (if cfg.longStart2 then [startLong] else [])

/-- `encode_single()` (R171). -/
def encodeSingle : List Byte := [ackByte]

/-- `encode_short(c, a)` (R172). -/
def encodeShort (c a : Byte) : List Byte := [startShort, c, a, c + a, stopByte]

/-- `encode_control(c, a, ci)` (R173). -/
def encodeControl (cfg : Params) (c a ci : Byte) : List Byte :=
  longPrefix cfg 3 ++ [c, a, ci, c + a + ci, stopByte]

/-- `encode_long(c, a, ci, data)` (R174). -/
def encodeLong (cfg : Params) (c a ci : Byte) (data : List Byte) : Except EncodingCause (List Byte) :=
  if maxData < data.length then .error .payloadTooLarge
  else
    .ok (longPrefix cfg (BitVec.ofNat 8 (3 + data.length)) ++ [c, a, ci] ++ data ++
      [c + a + ci + byteSum data, stopByte])

/-- The wire bytes of a Frame (R170). -/
def encodeWire (cfg : Params) : Frame → Except EncodingCause (List Byte)
  | .single => .ok encodeSingle
  | .short c a => .ok (encodeShort c a)
  | .control c a ci => .ok (encodeControl cfg c a ci)
  | .long c a ci data => encodeLong cfg c a ci data

/-- ENCODE (R170): the operand's checks, then its frame's bytes. -/
def encodeOperand (cfg : Params) (operand : List Byte) : Except EncodingCause (List Byte) :=
  match checkOperand operand with
  | .error e => .error e
  | .ok f => encodeWire cfg f

/-! ### Payloads (R178 to R181) -/

/-- `pt_bytes(r)` (R179). -/
def plainTextBytes (r : Record) : List Byte :=
  if vifValue r.vif = 0x7C#7 then BitVec.ofNat 8 r.textWire.length :: r.textWire else []

/-- `item_bytes(RECORD r)` (R179). -/
def recordBytes (cfg : Params) (r : Record) : List Byte :=
  [r.dif] ++ r.dife ++ [r.vif] ++ (if cfg.plainTextPos = .afterVif then plainTextBytes r else []) ++ r.vife ++
    (if cfg.plainTextPos = .afterVifeChain then plainTextBytes r else []) ++ r.vbytes

/-- `item_bytes(it)` (R179). -/
def itemBytes (cfg : Params) : Item → List Byte
  | .fill _ => [0x2F]
  | .globalReadout _ => [0x7F]
  | .manufData _ dif bytes => dif :: bytes
  | .opaqueBytes _ _ bytes => bytes
  | .record r => recordBytes cfg r

/-- The items' bytes, in order. -/
def itemsBytes (cfg : Params) (items : List Item) : List Byte := items.flatMap (itemBytes cfg)

/-- `header_bytes(h)` (R181): the raw fields only. -/
def headerBytes : Header → List Byte
  | .absent => []
  | .h0 => []
  | .h4 h => [h.acc, h.st] ++ bytes16 h.sig
  | .h12 h => bytes32 h.id ++ bytes16 h.man ++ [h.ver, h.med, h.acc, h.st] ++ bytes16 h.sig

/-- The bytes ENCODE_PAYLOAD writes, before its length check (R178). -/
def payloadBytes (cfg : Params) (r : UserDataResponse) : List Byte :=
  headerBytes r.header ++ itemsBytes cfg r.items ++ r.rawTail

/-- ENCODE_PAYLOAD (R178). -/
def encodeResponse (cfg : Params) (r : UserDataResponse) : Except EncodingCause (List Byte) :=
  if maxData < (payloadBytes cfg r).length then .error .payloadTooLarge else .ok (payloadBytes cfg r)

/-- What an encoding command returns (R170, R178): the bytes, or the error and no bytes. -/
def encodingResult : Except EncodingCause (List Byte) → Result
  | .ok bs => .bytes bs
  | .error e => .encodingError e

/-- ENCODE (code 0x20, R170). -/
def execEncodeFrame (operand : List Byte) (s : State) : Host.Outcome State Fault Refusal :=
  answer (encodingResult (encodeOperand s.params operand)) s

/-- ENCODE_PAYLOAD (code 0x21, R178). -/
def execEncodePayload (r : UserDataResponse) (s : State) : Host.Outcome State Fault Refusal :=
  answer (encodingResult (encodeResponse s.params r)) s

end Sys2Proof.Machine
end

