-- ==== Sys2Proof/Machine/PacketParser.lean ====
section
/-! DEFINITION. The Packet Parser's commands (41_parser.md R119, R132, R140, R141, R150), and the rows that are parts of
PUSH_BYTE: the ten arms (R120 to R129), the three first bytes of a frame (R120) and the named C values
(30_encoding.md R79, R81), each on the registers it writes and where its selector selects it. -/

namespace Sys2Proof.Machine

open Sys2Proof.Config

/-! ### Commands -/

/-- PUSH_BYTE (code 0x01, R119): it answers STATUS after the arm. -/
def execPushByte (b : Byte) (s : State) : Host.Outcome State Fault Refusal :=
  match s.parser.pushByte s.params b with
  | .ok p => answer (.status p.status) { s with parser := p }
  | .error e => .fault e

/-- PUSH_BUF (code 0x02, R132): it answers the bytes consumed, the errors counted and STATUS. -/
def execPushBuf (bs : List Byte) (s : State) : Host.Outcome State Fault Refusal :=
  match s.parser.pushBuf s.params bs 0 0 with
  | .ok (k, errors, p) => answer (.pushed k errors p.status) { s with parser := p }
  | .error e => .fault e

/-- GET_STATE (code 0x04, R140). -/
def execGetState (s : State) : Host.Outcome State Fault Refusal := answer (.status s.parser.status) s

/-- GET_FRAME (code 0x03, R141): it answers FR where FRAME_READY = 1, and clears it where P_GETFRAME_CONSUMES says so;
otherwise it answers NONE and changes nothing (D50). -/
def execGetFrame (s : State) : Host.Outcome State Fault Refusal :=
  if s.parser.frameReady then
    answer (.frame (frameResultLayout (some s.parser.fr)))
      { s with parser := { s.parser with frameReady := !s.params.getFrameConsumes },
               framesOut := s.framesOut ++ [s.parser.fr] }
  else answer (.frame (frameResultLayout none)) s

/-- RESET (code 0x05, R150): it answers STATUS. -/
def execReset (s : State) : Host.Outcome State Fault Refusal :=
  answer (.status (Parser.clear s.draws).status) { s with parser := Parser.clear s.draws, draws := s.draws + 1 }

/-! ### Arms -/

/-- ARM_EXPECT_START (R120). -/
def execArmExpectStart (b : Byte) (s : State) : Host.Outcome State Fault Refusal :=
  whenExpecting .expectStart (fun p => .ok (p.armStart b)) s

/-- ARM_EXPECT_LENGTH (R121). -/
def execArmExpectLength (b : Byte) (s : State) : Host.Outcome State Fault Refusal :=
  whenExpecting .expectLength (fun p => .ok (p.armLength b)) s

/-- ARM_EXPECT_LENGTH_REPEAT (R122). -/
def execArmExpectLengthRepeat (b : Byte) (s : State) : Host.Outcome State Fault Refusal :=
  whenExpecting .expectLengthRepeat (fun p => .ok (p.armLengthRepeat s.params b)) s

/-- ARM_EXPECT_START2 (R123). -/
def execArmExpectStart2 (b : Byte) (s : State) : Host.Outcome State Fault Refusal :=
  whenExpecting .expectStart2 (fun p => .ok (p.armStart2 b)) s

/-- ARM_EXPECT_CONTROL (R124). -/
def execArmExpectControl (b : Byte) (s : State) : Host.Outcome State Fault Refusal :=
  whenExpecting .expectControl (fun p => .ok (p.armControl b)) s

/-- ARM_EXPECT_ADDRESS (R125). -/
def execArmExpectAddress (b : Byte) (s : State) : Host.Outcome State Fault Refusal :=
  whenExpecting .expectAddress (fun p => .ok (p.armAddress b)) s

/-- ARM_EXPECT_CONTROL_INFO (R126). -/
def execArmExpectControlInfo (b : Byte) (s : State) : Host.Outcome State Fault Refusal :=
  whenExpecting .expectControlInfo (fun p => .ok (p.armControlInfo b)) s

/-- ARM_EXPECT_DATA (R127). -/
def execArmExpectData (b : Byte) (s : State) : Host.Outcome State Fault Refusal :=
  whenExpecting .expectData (fun p => p.armData b) s

/-- ARM_EXPECT_CHECKSUM (R128). -/
def execArmExpectChecksum (b : Byte) (s : State) : Host.Outcome State Fault Refusal :=
  whenExpecting .expectChecksum (fun p => .ok (p.armChecksum b)) s

/-- ARM_EXPECT_STOP (R129). -/
def execArmExpectStop (b : Byte) (s : State) : Host.Outcome State Fault Refusal :=
  whenExpecting .expectStop (fun p => .ok (p.armStop b)) s

/-! ### First bytes of a frame -/

/-- FRAME_SINGLE: the byte 0xE5 where a start byte is expected (R120, 30_encoding.md R78). -/
def execFrameSingle (s : State) : Host.Outcome State Fault Refusal :=
  whenExpecting .expectStart (fun p => .ok p.beginSingle) s

/-- FRAME_SHORT: the byte 0x10 (R120). -/
def execFrameShort (s : State) : Host.Outcome State Fault Refusal :=
  whenExpecting .expectStart (fun p => .ok p.beginShort) s

/-- FRAME_CONTROL_OR_LONG: the byte 0x68 (R120). -/
def execFrameControlOrLong (s : State) : Host.Outcome State Fault Refusal :=
  whenExpecting .expectStart (fun p => .ok p.beginLong) s

/-! ### Named C values: parsed like any other C value (30_encoding.md R79, R81) -/

/-- The C byte `c` where the C field is expected (R124). -/
def takeControl (c : Byte) (s : State) : Host.Outcome State Fault Refusal :=
  whenExpecting .expectControl (fun p => .ok (p.armControl c)) s

/-- C_SND_NKE. -/
def execCSndNke (s : State) : Host.Outcome State Fault Refusal := takeControl 0x40 s

/-- C_SND_UD. -/
def execCSndUd (fcb : Bool) (s : State) : Host.Outcome State Fault Refusal := takeControl (fcbByte 0x53 fcb) s

/-- C_REQ_UD2. -/
def execCReqUd2 (fcb : Bool) (s : State) : Host.Outcome State Fault Refusal := takeControl (fcbByte 0x5B fcb) s

/-- C_REQ_UD1. -/
def execCReqUd1 (fcb : Bool) (s : State) : Host.Outcome State Fault Refusal := takeControl (fcbByte 0x5A fcb) s

/-- C_RSP_UD. -/
def execCRspUd (acd dfc : Bool) (s : State) : Host.Outcome State Fault Refusal :=
  takeControl (0b00#2 ++ BitVec.ofBool acd ++ BitVec.ofBool dfc ++ 0x8#4 : BitVec 8) s

end Sys2Proof.Machine
end

