-- ==== Sys2Proof/Machine/Dispatch.lean ====
section
/-! DEFINITION. One arm for each constructor of Instr: a direct call of its meaning. -/

namespace Sys2Proof.Machine

def exec (i : Instr) (s : State) : Host.Outcome State Fault Refusal :=
  match i with
  -- the commands
  | .pushByte b => Sys2Proof.Machine.execPushByte b s
  | .pushBuf bs => Sys2Proof.Machine.execPushBuf bs s
  | .getFrame => Sys2Proof.Machine.execGetFrame s
  | .getState => Sys2Proof.Machine.execGetState s
  | .reset => Sys2Proof.Machine.execReset s
  | .checksum bs => Sys2Proof.Machine.execChecksum bs s
  | .validateMarkers start stop lenA lenB => Sys2Proof.Machine.execValidateMarkers start stop lenA lenB s
  | .encodeFrame operand => Sys2Proof.Machine.execEncodeFrame operand s
  | .encodePayload r => Sys2Proof.Machine.execEncodePayload r s
  | .decodePayload ci data => Sys2Proof.Machine.execDecodePayload ci data s
  | .decodeRecords data => Sys2Proof.Machine.execDecodeRecords data s
  | .illegalCommand code => Sys2Proof.Machine.execIllegalCommand code s
  -- the arms
  | .armExpectStart b => Sys2Proof.Machine.execArmExpectStart b s
  | .armExpectLength b => Sys2Proof.Machine.execArmExpectLength b s
  | .armExpectLengthRepeat b => Sys2Proof.Machine.execArmExpectLengthRepeat b s
  | .armExpectStart2 b => Sys2Proof.Machine.execArmExpectStart2 b s
  | .armExpectControl b => Sys2Proof.Machine.execArmExpectControl b s
  | .armExpectAddress b => Sys2Proof.Machine.execArmExpectAddress b s
  | .armExpectControlInfo b => Sys2Proof.Machine.execArmExpectControlInfo b s
  | .armExpectData b => Sys2Proof.Machine.execArmExpectData b s
  | .armExpectChecksum b => Sys2Proof.Machine.execArmExpectChecksum b s
  | .armExpectStop b => Sys2Proof.Machine.execArmExpectStop b s
  -- the first bytes of a frame
  | .frameSingle => Sys2Proof.Machine.execFrameSingle s
  | .frameShort => Sys2Proof.Machine.execFrameShort s
  | .frameControlOrLong => Sys2Proof.Machine.execFrameControlOrLong s
  -- DIF
  | .difManufData => Sys2Proof.Machine.execDifManufData s
  | .difManufDataMore => Sys2Proof.Machine.execDifManufDataMore s
  | .difIdleFill => Sys2Proof.Machine.execDifIdleFill s
  | .difGlobalReadout => Sys2Proof.Machine.execDifGlobalReadout s
  | .difReserved high => Sys2Proof.Machine.execDifReserved high s
  | .difNoData h => Sys2Proof.Machine.execDifNoData h s
  | .difInt8 h => Sys2Proof.Machine.execDifInt8 h s
  | .difInt16 h => Sys2Proof.Machine.execDifInt16 h s
  | .difInt24 h => Sys2Proof.Machine.execDifInt24 h s
  | .difInt32 h => Sys2Proof.Machine.execDifInt32 h s
  | .difReal32 h => Sys2Proof.Machine.execDifReal32 h s
  | .difInt48 h => Sys2Proof.Machine.execDifInt48 h s
  | .difInt64 h => Sys2Proof.Machine.execDifInt64 h s
  | .difSelection h => Sys2Proof.Machine.execDifSelection h s
  | .difBcd2 h => Sys2Proof.Machine.execDifBcd2 h s
  | .difBcd4 h => Sys2Proof.Machine.execDifBcd4 h s
  | .difBcd6 h => Sys2Proof.Machine.execDifBcd6 h s
  | .difBcd8 h => Sys2Proof.Machine.execDifBcd8 h s
  | .difLvar h => Sys2Proof.Machine.execDifLvar h s
  | .difBcd12 h => Sys2Proof.Machine.execDifBcd12 h s
  -- DIFE
  | .dife ext subunit tariff storage => Sys2Proof.Machine.execDife ext subunit tariff storage s
  -- VIF
  | .vifUnsupported6F ext => Sys2Proof.Machine.execVifUnsupported6F ext s
  | .vifExtTableFB ext => Sys2Proof.Machine.execVifExtTableFB ext s
  | .vifPlainText ext => Sys2Proof.Machine.execVifPlainText ext s
  | .vifExtTableFD ext => Sys2Proof.Machine.execVifExtTableFD ext s
  | .vifAny ext => Sys2Proof.Machine.execVifAny ext s
  | .vifManufacturer ext => Sys2Proof.Machine.execVifManufacturer ext s
  | .vifPrimary ext value => Sys2Proof.Machine.execVifPrimary ext value s
  -- VIFE
  | .vife ext value => Sys2Proof.Machine.execVife ext value s
  -- LVAR
  | .lvarText length => Sys2Proof.Machine.execLvarText length s
  | .lvarBcdPos count => Sys2Proof.Machine.execLvarBcdPos count s
  | .lvarReserved lv => Sys2Proof.Machine.execLvarReserved lv s
  | .lvarBcdNeg count => Sys2Proof.Machine.execLvarBcdNeg count s
  | .lvarBinary count => Sys2Proof.Machine.execLvarBinary count s
  -- named C values
  | .cSndNke => Sys2Proof.Machine.execCSndNke s
  | .cSndUd fcb => Sys2Proof.Machine.execCSndUd fcb s
  | .cReqUd2 fcb => Sys2Proof.Machine.execCReqUd2 fcb s
  | .cReqUd1 fcb => Sys2Proof.Machine.execCReqUd1 fcb s
  | .cRspUd acd dfc => Sys2Proof.Machine.execCRspUd acd dfc s

end Sys2Proof.Machine
end

