-- ==== Sys2Proof/Machine/Step.lean ====
section
/-! DEFINITION. One step: the block takes the next command the host has issued and runs it to its end (00_scope.md R6, R7;
20_memory.md R58, R61). -/

namespace Sys2Proof.Machine

/-- One step. With no command issued the block does nothing: it holds its state (60_exceptions.md R314). -/
def step (s : State) : Host.Outcome State Fault Refusal :=
  match s.takeCommand with
  | none => .next s
  | some (p, t) =>
    match decode p with
    | .ok i => exec i t
    | .error e => .refused (.malformedCommand e)

/-- `s` with the command of an opcode-table word as the next one the block takes. -/
def State.withFetchWord (s : State) (nbits w : Nat) : State := s.issueFirst (tablePacket nbits w)

end Sys2Proof.Machine
end

