-- ==== Sys2Proof/Machine/ItemLoop.lean ====
section
/-! DEFINITION. The item loop of 43_records.md R209 written as the rule's pseudocode has it: offsets i and j into the whole
block p, and the functions `chain`, `plain_text` and `value_length`, each of which may stop. The machine decodes byte
by byte (Records.lean); that the two agree is a statement of its own. -/

namespace Sys2Proof.Machine.ItemLoop

open Sys2Proof.Config

/-- `p[j]`, where there is one; a read at j ≥ len(p) runs `stop(TRUNCATED)` (R219). -/
def byteAt (p : List Byte) (j : Nat) : Except UnsupportedCause Byte :=
  match p[j]? with
  | some x => .ok x
  | none => .error .truncated

/-- `chain(ext0, max, ovf)` (R215) from offset `j` with `out` read so far; `fuel` bounds the bytes it may read. -/
def chain (p : List Byte) (max : Nat) (ovf : UnsupportedCause) :
    (fuel : Nat) → (ext : Bool) → (j : Nat) → (out : List Byte) → Except UnsupportedCause (List Byte × Nat)
  | _, false, j, out => .ok (out, j)
  | 0, true, _, _ => .error .truncated
  | fuel + 1, true, j, out =>
    match byteAt p j with
    | .error e => .error e
    | .ok x => if out.length = max then .error ovf else chain p max ovf fuel (extBit x) (j + 1) (out ++ [x])

/-- `plain_text(vif)` (R216): the characters in wire order, and the offset after them. -/
def plainText (p : List Byte) (vif : Byte) (j : Nat) : Except UnsupportedCause (List Byte × Nat) :=
  if vifValue vif ≠ 0x7C#7 then .ok ([], j)
  else
    match byteAt p j with
    | .error e => .error e
    | .ok k =>
      if p.length < j + 1 + k.toNat then .error .truncated
      else .ok ((p.drop (j + 1)).take k.toNat, j + 1 + k.toNat)

/-- `value_length(df)` (R218). -/
def valueLength (cfg : Params) (p : List Byte) (df : BitVec 4) (j : Nat) : Except UnsupportedCause Nat :=
  if df = 0xD#4 then
    match byteAt p j with
    | .error e => .error e
    | .ok lv => if lvarReserved cfg lv then .error .lvarReserved else .ok (1 + lvarCount lv)
  else .ok (valueWidth df)

/-- The parts of a complete record. -/
structure Parts where
  dife : List Byte
  vif  : Byte
  text : List Byte
  vife : List Byte
  vb   : List Byte
  /-- the offset after its last byte -/
  stop : Nat

/-- One data record whose DIF `d` is at offset `i`: everything from `j <- i + 1` to `e <- j + n` (R209). -/
def readParts (cfg : Params) (p : List Byte) (i : Nat) (d : Byte) : Except UnsupportedCause Parts := do
  let (dife, j) ← chain p cfg.maxDife .difeOverflow (p.length + 1) (extBit d) (i + 1) []
  let vif ← byteAt p j
  let (text, j) ← if cfg.plainTextPos = .afterVif then plainText p vif (j + 1) else .ok ([], j + 1)
  let (vife, j) ← chain p cfg.maxVife .vifeOverflow (p.length + 1) (extBit vif) j []
  let (text, j) ← if cfg.plainTextPos = .afterVifeChain then plainText p vif j else .ok (text, j)
  let n ← valueLength cfg p (dataField d) j
  if p.length < j + n then .error .truncated
  else .ok { dife := dife, vif := vif, text := text, vife := vife, vb := (p.drop j).take n, stop := j + n }

/-- The RECORD of a record's parts (R210, R220, R221). -/
def recordOf (cfg : Params) (i : Nat) (d : Byte) (r : Parts) : Record :=
  { offset := i, dif := d, dife := r.dife, vif := r.vif, textWire := r.text, vife := r.vife, vbytes := r.vb,
    function := d.extractLsb' 4 2, storage := storageOf d r.dife, tariff := difeTariff r.dife,
    subunit := difeSubunit r.dife, value := decodeValue cfg (dataField d) r.vb r.vif,
    unit := unitOf cfg r.vif r.vife }

/-- The items and the errors of a decoded block. -/
abbrev Decoded := List Item × List (UnsupportedCause × Nat)

/-- `stop(cause)` (R223) at offset `i`. -/
def stopAt (p : List Byte) (i : Nat) (cause : UnsupportedCause) (out : Decoded) : Decoded :=
  (out.1 ++ [.opaqueBytes i cause (p.drop i)], out.2 ++ [(cause, i)])

/-- The while loop of `decode_from` (R209) from offset `i`; `fuel` bounds its iterations. -/
def loop (cfg : Params) (p : List Byte) : (fuel : Nat) → (i : Nat) → Decoded → Decoded
  | 0, _, out => out
  | fuel + 1, i, out =>
    match p[i]? with
    | none => out
    | some d =>
      if d = 0x2F#8 then loop cfg p fuel (i + 1) (out.1 ++ [.fill i], out.2)
      else if d = 0x0F#8 ∨ d = 0x1F#8 then (out.1 ++ [.manufData i d (p.drop (i + 1))], out.2)
      else if d = 0x7F#8 then loop cfg p fuel (i + 1) (out.1 ++ [.globalReadout i], out.2)
      else if dataField d = 0xF#4 then stopAt p i .reservedDif out
      else if dataField d = 0xE#4 ∧ cfg.bcd12 = false then stopAt p i .reservedDif out
      else
        match readParts cfg p i d with
        | .error cause => stopAt p i cause out
        | .ok r =>
          if vifValue r.vif = 0x7F#7 ∨ vifSupported cfg r.vif r.vife = true then
            loop cfg p fuel r.stop (out.1 ++ [.record (recordOf cfg i d r)], out.2)
          else
            loop cfg p fuel r.stop
              (out.1 ++ [.opaqueBytes i .vifUnsupported ((p.drop i).take (r.stop - i))],
                out.2 ++ [(.vifUnsupported, i)])

/-- `decode_from(p, s)` (R209). -/
def decodeFrom (cfg : Params) (p : List Byte) (s : Nat) : Decoded := loop cfg p (p.length + 1) s ([], [])

end Sys2Proof.Machine.ItemLoop
end

