-- ==== Sys2Proof/Machine/Pseudo.lean ====
section
/-! DEFINITION. The pseudo-instructions of 30_encoding.md R97: each is run as the commands it expands to. What a FEED emits
is what its GET_FRAMEs return, in `framesOut`. -/

namespace Sys2Proof.Machine

/-- `first`, then `k` on the state it leaves. -/
def thenRun (first : Host.Outcome State Fault Refusal) (k : State → Host.Outcome State Fault Refusal) :
    Host.Outcome State Fault Refusal :=
  match first with
  | .next s => k s
  | .fault e => .fault e
  | .refused r => .refused r

/-- The bytes the last command consumed, and bit 4 of the STATUS it answered, where it was a PUSH_BUF. -/
def lastPush (s : State) : Nat × Bool :=
  match s.results.getLast? with
  | some (.pushed k _ w) => (k, w.getLsbD 4)
  | _ => (0, false)

/-- FEED's loop: `fuel` bounds its rounds; every PUSH_BUF of a nonempty buffer consumes a byte, so as many rounds as
bytes are enough. -/
def feedLoop : (fuel : Nat) → (bs : List Byte) → State → Host.Outcome State Fault Refusal
  | 0, _, s => .next s
  | fuel + 1, bs, s =>
    if bs = [] then .next s
    else
      thenRun (exec (.pushBuf bs) s) fun t =>
        thenRun (if (lastPush t).2 then exec .getFrame t else .next t) fun u =>
          feedLoop fuel (bs.drop (lastPush t).1) u

/-- `FEED bs` (R97). -/
def feed (bs : List Byte) (s : State) : Host.Outcome State Fault Refusal := feedLoop bs.length bs s

/-- The bytes the last command answered: none after an EncodingError. -/
def lastBytes (s : State) : List Byte :=
  match s.results.getLast? with
  | some (.bytes bs) => bs
  | _ => []

/-- `LOOPBACK f` (R97). -/
def loopback (f : Frame) (s : State) : Host.Outcome State Fault Refusal :=
  thenRun (exec (.encodeFrame (frameLayout f)) s) fun t => feed (lastBytes t) t

/-- `RECV bs` (R97). -/
def recv (bs : List Byte) (s : State) : Host.Outcome State Fault Refusal :=
  thenRun (exec .reset s) fun t => feed bs t

end Sys2Proof.Machine
end

