-- ==== Sys2Proof/Safety.lean ====
section
/-! DEFINITION. What a safe run is, and what is seen of one: the invariants of 10_state.md (R31, R32), the block's promise
that no command stops it (00_scope.md R17), and the end-of-run observation (70_reset_and_hazards.md R352). -/

namespace Sys2Proof.Machine

open Sys2Proof.Config

/-- The bytes of the frame in progress that the running checksum has summed after C, A and CI: BUF[0 .. W_IDX-1]. -/
def Parser.dataSoFar (p : Parser) : List Byte := p.buf.toList.take p.wIdx.toNat

/-- R31: a retained frame is there only in EXPECT_START. -/
def Parser.ReadyOnlyAtStart (p : Parser) : Prop := p.frameReady = true → p.st = .expectStart

/-- What holds of the registers of the frame in progress in each state. EXPECT_DATA and EXPECT_CHECKSUM are R32's
conditions; the other states' are what those need one step earlier, and EXPECT_STOP keeps EXPECT_CHECKSUM's. -/
def Parser.FrameInv (p : Parser) : Prop :=
  match p.st with
  | .expectStart => True
  | .expectLength => p.wKind = .long
  | .expectLengthRepeat => p.wKind = .long ∧ 3 ≤ p.wLen.toNat
  | .expectStart2 => p.wKind = .long ∧ 3 ≤ p.wLen.toNat
  | .expectControl => p.wKind = .long → 3 ≤ p.wLen.toNat
  | .expectAddress => (p.wKind = .long → 3 ≤ p.wLen.toNat) ∧ p.wSum = p.wC
  | .expectControlInfo => p.wKind = .long ∧ 3 ≤ p.wLen.toNat ∧ p.wSum = p.wC + p.wA
  | .expectData =>
    p.wKind = .long ∧ 4 ≤ p.wLen.toNat ∧ 1 ≤ p.wRem.toNat ∧ p.wIdx.toNat + p.wRem.toNat = p.wLen.toNat - 3 ∧
      p.wSum = p.wC + p.wA + p.wCI + byteSum p.dataSoFar
  | .expectChecksum =>
    (p.wKind = .short ∧ p.wSum = p.wC + p.wA) ∨
      (p.wKind = .long ∧ 3 ≤ p.wLen.toNat ∧ p.wIdx.toNat = p.wLen.toNat - 3 ∧
        p.wSum = p.wC + p.wA + p.wCI + byteSum p.dataSoFar)
  | .expectStop =>
    (p.wKind = .short ∧ p.wSum = p.wC + p.wA) ∨
      (p.wKind = .long ∧ 3 ≤ p.wLen.toNat ∧ p.wIdx.toNat = p.wLen.toNat - 3 ∧
        p.wSum = p.wC + p.wA + p.wCI + byteSum p.dataSoFar)

/-- A frame that a parser can have completed: a LONG frame's data block has 1 to 252 bytes (R29). -/
def Frame.Legal : Frame → Prop
  | .single => True
  | .short _ _ => True
  | .control _ _ _ => True
  | .long _ _ _ data => 1 ≤ data.length ∧ data.length ≤ maxData

/-- A retained frame is a legal one. -/
def Parser.RetainedLegal (p : Parser) : Prop := p.frameReady = true → Frame.Legal p.fr

/-- The error flags between commands (R27, R28): after a step that recorded an error there is a cause, no frame is
retained and the parser expects a start byte. -/
def Parser.ErrorFlags (p : Parser) : Prop :=
  p.errEvent = true → p.lastErr ≠ none ∧ p.frameReady = false ∧ p.st = .expectStart

/-- The parser's invariant. -/
def Parser.Inv (p : Parser) : Prop := p.ReadyOnlyAtStart ∧ p.FrameInv ∧ p.RetainedLegal ∧ p.ErrorFlags

/-- The machine's invariant between commands: the parser's; a record decoder that holds no state (10_state.md R20); and
EXPECT_START2 held only where P_LONG_START2 = true (10_state.md R22). -/
def State.Inv (s : State) : Prop :=
  s.parser.Inv ∧ s.drd = Drd.idle ∧ (s.parser.st = .expectStart2 → s.params.longStart2 = true)

/-- The registers of two parsers agree wherever one of them can still be read before it is written: the frame in
progress has written them (70_reset_and_hazards.md R340). The working registers that 10_state.md R36 leaves
unspecified may differ. -/
def Parser.SameLive (p q : Parser) : Prop :=
  p.st = q.st ∧ p.frameReady = q.frameReady ∧ p.errEvent = q.errEvent ∧ p.lastErr = q.lastErr ∧
    (p.frameReady = true → p.fr = q.fr) ∧
    match p.st with
    | .expectStart => True
    | .expectLength => p.wKind = q.wKind
    | .expectLengthRepeat => p.wKind = q.wKind ∧ p.wLen = q.wLen
    | .expectStart2 => p.wKind = q.wKind ∧ p.wLen = q.wLen
    | .expectControl => p.wKind = q.wKind ∧ (p.wKind = .long → p.wLen = q.wLen)
    | .expectAddress => p.wKind = q.wKind ∧ (p.wKind = .long → p.wLen = q.wLen) ∧ p.wC = q.wC ∧ p.wSum = q.wSum
    | .expectControlInfo =>
      p.wKind = q.wKind ∧ p.wLen = q.wLen ∧ p.wC = q.wC ∧ p.wA = q.wA ∧ p.wSum = q.wSum
    | .expectData =>
      p.wKind = q.wKind ∧ p.wLen = q.wLen ∧ p.wC = q.wC ∧ p.wA = q.wA ∧ p.wCI = q.wCI ∧ p.wRem = q.wRem ∧
        p.wIdx = q.wIdx ∧ p.wSum = q.wSum ∧ p.dataSoFar = q.dataSoFar
    | .expectChecksum =>
      p.wKind = q.wKind ∧ p.wC = q.wC ∧ p.wA = q.wA ∧ p.wSum = q.wSum ∧
        (p.wKind = .long → p.wLen = q.wLen ∧ p.wCI = q.wCI ∧ p.dataSoFar = q.dataSoFar)
    | .expectStop =>
      p.wKind = q.wKind ∧ p.wC = q.wC ∧ p.wA = q.wA ∧
        (p.wKind = .long → p.wLen = q.wLen ∧ p.wCI = q.wCI ∧ p.dataSoFar = q.dataSoFar)

/-- Two machines that the host cannot tell apart: everything but dead registers and the draw counter agrees. -/
def State.SameSeen (s t : State) : Prop :=
  s.parser.SameLive t.parser ∧ s.drd = t.drd ∧ s.params = t.params ∧ s.pending = t.pending ∧ s.results = t.results ∧
    s.framesOut = t.framesOut ∧ s.refusalMark = t.refusalMark

/-- Every command the host has issued is one the interface carries: a code with that code's operands
(30_encoding.md R70), or a reserved code (R72). -/
def State.WellIssued (s : State) : Prop := ∀ p ∈ s.pending, ∃ i, decode p = .ok i

/-- The end-of-run observation (R352). -/
structure Observation where
  results    : List Result
  st         : PState
  frameReady : Bool
  errEvent   : Bool
  lastErr    : Option FramingCause
  /-- FR, only where FRAME_READY = 1 -/
  fr         : Option Frame
  refused    : Bool
  frames     : List Frame
  deriving DecidableEq, Repr

/-- What the host can say of a run that has ended in `s` (R352). -/
def State.observe (s : State) : Observation :=
  { results := s.results, st := s.parser.st, frameReady := s.parser.frameReady, errEvent := s.parser.errEvent,
    lastErr := s.parser.lastErr, fr := if s.parser.frameReady then some s.parser.fr else none,
    refused := s.refusalMark, frames := s.framesOut }

end Sys2Proof.Machine
end

