-- ==== Sys2Proof/Certificates/Slice0/Obligations.lean ====
section
/-! DEFINITION. The statements for the provers. Each says which rule of spec/ it formalises. -/

set_option autoImplicit false

open Sys2Proof Sys2Proof.Machine Sys2Proof.Config

namespace Sys2Proof.Claims

/-- Instruction `i` completes in `s` with the result `r` and changes nothing else. -/
def Answers (i : Instr) (s : State) (r : Result) : Prop := exec i s = .next { s with results := s.results ++ [r] }

/-- CHECKSUM of `bs` answers `u`. -/
def ChecksumIs (s : State) (bs : List Byte) (u : Byte) : Prop := Answers (.checksum bs) s (.sum u)

/-- ENCODE of the frame `f` answers the bytes `w`. -/
def EncodesTo (s : State) (f : Frame) (w : List Byte) : Prop := Answers (.encodeFrame (frameLayout f)) s (.bytes w)

/-- PUSH_BUF of `w` completes a frame `f` with the last byte of `w` and not before, with `errors` errors. -/
def PushCompletes (s : State) (w : List Byte) (errors : Nat) (f : Frame) : Prop :=
  w ≠ [] ∧
    ∃ t, exec (.pushBuf w) s = .next t ∧ t.results = s.results ++ [.pushed w.length errors t.parser.status] ∧
      t.parser.frameReady = true ∧ t.parser.fr = f

/-- The FramingError cause that byte `b` raises in the parser's state, if any (60_exceptions.md R303). -/
def raisedCause (p : Parser) (b : Byte) : Option FramingCause :=
  match p.st with
  | .expectStart => if b = 0x10 ∨ b = 0x68 ∨ b = 0xE5 then none else some .badStart
  | .expectLength => if b.toNat < 3 then some .lengthRange else none
  | .expectLengthRepeat => if b = p.wLen then none else some .lengthMismatch
  | .expectStart2 => if b = 0x68 then none else some .badStart2
  | .expectControl => none
  | .expectAddress => none
  | .expectControlInfo => none
  | .expectData => none
  | .expectChecksum => if b = p.wSum then none else some .checksum
  | .expectStop => if b = 0x16 then none else some .badStop

/-- The frame ENCODE's bytes come back as: a LONG frame without data is a CONTROL frame on the wire
(42_encoder.md R174, R177). -/
def onTheWire : Frame → Frame
  | .long c a ci [] => .control c a ci
  | f => f

/-- The rows of the DIF data fields with their code (30_encoding.md R88). -/
def dataDifRows (h : DifHead) : List (Instr × BitVec 4) :=
  [(.difNoData h, 0x0), (.difInt8 h, 0x1), (.difInt16 h, 0x2), (.difInt24 h, 0x3), (.difInt32 h, 0x4),
    (.difReal32 h, 0x5), (.difInt48 h, 0x6), (.difInt64 h, 0x7), (.difSelection h, 0x8), (.difBcd2 h, 0x9),
    (.difBcd4 h, 0xA), (.difBcd6 h, 0xB), (.difBcd8 h, 0xC), (.difLvar h, 0xD), (.difBcd12 h, 0xE)]

/-- The value bytes of each data field of known width (30_encoding.md R88, 43_records.md R218). -/
def fieldWidths : List (BitVec 4 × Nat) :=
  [(0x0, 0), (0x1, 1), (0x2, 2), (0x3, 3), (0x4, 4), (0x5, 4), (0x6, 6), (0x7, 8), (0x8, 0), (0x9, 1), (0xA, 2),
    (0xB, 3), (0xC, 4), (0xE, 6)]

/-- The VIF rows other than plain text, with the value bits of their byte (30_encoding.md R92). -/
def plainVifRows (ext : Bool) (value : BitVec 7) : List (Instr × BitVec 7) :=
  [(.vifUnsupported6F ext, 0x6F), (.vifExtTableFB ext, 0x7B), (.vifExtTableFD ext, 0x7D), (.vifAny ext, 0x7E),
    (.vifManufacturer ext, 0x7F)] ++ (if isPrimaryVif value then [(.vifPrimary ext value, value)] else [])

/-- The LVAR rows that give a length, with their byte and their count (30_encoding.md R93). -/
def lvarRows (n : Byte) (k : BitVec 4) : List (Instr × Byte × Nat) :=
  (if n.toNat ≤ 0xBF then [(.lvarText n, n, n.toNat)] else []) ++
    (if k.toNat ≤ 9 then [(.lvarBcdPos k, 0xC#4 ++ k, k.toNat), (.lvarBcdNeg k, 0xD#4 ++ k, k.toNat)] else []) ++
    [(.lvarBinary k, 0xE#4 ++ k, k.toNat)]

/-- The RECORD that a decoder at context `d`, its VIF byte, VIFE chain and plain text as given, makes of the value
bytes `vb` (43_records.md R210, R220, R221). -/
def recordWith (cfg : Params) (d : Drd) (vif : Byte) (text vife vb : List Byte) (value : Value) : Record :=
  { offset := d.start, dif := d.dif, dife := d.dife, vif := vif, textWire := text, vife := vife, vbytes := vb,
    function := d.dif.extractLsb' 4 2, storage := storageOf d.dif d.dife, tariff := difeTariff d.dife,
    subunit := difeSubunit d.dife, value := value, unit := unitOf cfg vif vife }

/-- The decoder stops: the item begun at `d.start`, the row byte `x` and all that follows are one OPAQUE item, the
cause is the last error, and nothing but the decoder's context changes (43_records.md R223). -/
def StopsDecoding (i : Instr) (s : State) (x : Byte) (cause : UnsupportedCause) : Prop :=
  ∃ e, exec i s = .next { s with drd := e } ∧
    e.items = s.drd.items ++ [.opaqueBytes s.drd.start cause (s.drd.taken ++ [x] ++ s.drd.rest)] ∧
    e.errors = s.drd.errors ++ [(cause, s.drd.start)] ∧ e.phase = .done ∧ e.rest = []

/-- The decoder completes the record begun at `s.drd.start` with the row byte and `n` bytes after it: `it` is the next
item, the loop goes on at the byte after it, and nothing but the decoder's context changes. -/
def CompletesItem (i : Instr) (s : State) (n : Nat) (it : Item) (errors : List (UnsupportedCause × Nat)) : Prop :=
  exec i s =
    .next
      { s with
        drd :=
          { Drd.idle with
            phase := .dif, pos := s.drd.pos + 1 + n, rest := s.drd.rest.drop n, start := s.drd.pos + 1 + n,
            items := s.drd.items ++ [it], errors := s.drd.errors ++ errors } }

/-- The row byte `x` of instruction `i` ends the VIFE chain at `s`: a VIF with EXT = 0, or the last VIFE. The record then
has the VIF byte `vif` and the chain `vife`; `textHere` says whether its plain text follows (43_records.md R216, R217):
behind a VIF of value 0x7C with no VIFE, or behind such a VIF's chain under AFTER_VIFE_CHAIN. -/
def EndsChain (s : State) (i : Instr) (x vif : Byte) (vife : List Byte) (textHere : Prop) : Prop :=
  (s.drd.phase = .vif ∧
    (∃ value v, (i, v) ∈ (.vifPlainText false, 0x7C#7) :: plainVifRows false value ∧ x = vifByte false v) ∧
    vif = x ∧ vife = s.drd.vife ∧ (textHere ↔ vifValue x = 0x7C)) ∨
  (s.drd.phase = .vife ∧ s.drd.vife.length ≠ s.params.maxVife ∧
    (∃ value, i = .vife false value ∧ x = vifByte false value) ∧
    vif = s.drd.vif ∧ vife = s.drd.vife ++ [x] ∧
    (textHere ↔ vifValue vif = 0x7C ∧ s.params.plainTextPos = .afterVifeChain))

/-- Behind a chain's last byte: the plain text where it stands there (its length byte, then its characters), `m` bytes
in all, and `after` what follows (43_records.md R216). -/
def TextThen (d : Drd) (textHere : Prop) (text after : List Byte) (m : Nat) : Prop :=
  (¬ textHere ∧ text = d.text ∧ after = d.rest ∧ m = 0) ∨
  (textHere ∧ ∃ k : Byte, d.rest = k :: (text ++ after) ∧ text.length = k.toNat ∧ m = 1 + k.toNat)

/-- The number of bytes an item covers: those ENCODE_PAYLOAD writes for it (43_records.md R210, 42_encoder.md R179). -/
def itemLength (cfg : Params) (it : Item) : Nat := (itemBytes cfg it).length

/-- An item's offset. -/
def itemOffset : Item → Nat
  | .fill o => o
  | .globalReadout o => o
  | .manufData o _ _ => o
  | .opaqueBytes o _ _ => o
  | .record r => r.offset

/-- Each item begins where the one before it ended, the first at `o`. -/
def Contiguous (cfg : Params) : Nat → List Item → Prop
  | _, [] => True
  | o, it :: more => itemOffset it = o ∧ Contiguous cfg (o + itemLength cfg it) more

/-- A response with every derived field at a fixed value: what is left are its wire fields (42_encoder.md R178). -/
def wireFields (r : UserDataResponse) : UserDataResponse :=
  { ci := 0,
    header :=
      match r.header with
      | .h12 h => .h12 { h with idDecimal := none, manLetters := ⟨0, 0, 0⟩, mediumName := .other }
      | h => h,
    items :=
      r.items.map fun
        | .record x =>
          .record { x with offset := 0, function := 0, storage := 0, tariff := 0, subunit := 0, value := .none,
                           unit := none }
        | .opaqueBytes _ _ bytes => .opaqueBytes 0 .truncated bytes
        | .manufData _ dif bytes => .manufData 0 dif bytes
        | .globalReadout _ => .globalReadout 0
        | .fill _ => .fill 0,
    rawTail := r.rawTail, dataBlockCount := 0, isLastPackage := true, errors := [] }

/-- Packed BCD of `v` in `k` bytes, least significant byte first (44_values.md R254). -/
def packBcd : Nat → Nat → List Byte
  | 0, _ => []
  | k + 1, v => BitVec.ofNat 8 (v % 10 + 16 * (v / 10 % 10)) :: packBcd k (v / 100)

/-- The items that are data blocks: every one but FILL (43_records.md R207). -/
def isDataBlock : Item → Bool
  | .fill _ => false
  | _ => true

end Sys2Proof.Claims

open Sys2Proof.Claims

/-! ### Encoding -/

/-- One word of each encoding space, written out bit by bit from the tables of 30_encoding.md (R70, R74, R81, R87, R90,
R92, R93) and 10_state.md R22. -/
def Obligations.SampleWordsDecode : Prop :=
  decode { code := 0b00000001, operands := [0x68] } = .ok (.pushByte 0x68) ∧
  decode { code := 0b00010001, operands := [0x68, 0x16, 0x1F, 0x1E] } = .ok (.validateMarkers 0x68 0x16 0x1F 0x1E) ∧
  decode { code := 0b00110000, operands := [0x78, 0x01, 0x13, 0x07] } = .ok (.decodePayload 0x78 [0x01, 0x13, 0x07]) ∧
  decode { code := 0b00000110 } = .ok (.illegalCommand 0x06) ∧
  decodeIn .state4 { code := 0b00000111, operands := [0x02] } = .ok (.armExpectData 0x02) ∧
  decodeIn .wireStart8 { code := 0b11100101 } = .ok .frameSingle ∧
  decodeIn .dif8 { code := 0b11011010 } = .ok (.difBcd4 { ext := true, storageLsb := true, function := 0b01 }) ∧
  decodeIn .dif8 { code := 0b00101111 } = .ok .difIdleFill ∧
  decodeIn .dife8 { code := 0b01100000 } = .ok (.dife false true 0b10 0b0000) ∧
  decodeIn .vif8 { code := 0b11111101 } = .ok (.vifExtTableFD true) ∧
  decodeIn .vife8 { code := 0b10000101 } = .ok (.vife true 0b0000101) ∧
  decodeIn .lvar8 { code := 0b11000010 } = .ok (.lvarBcdPos 0b0010) ∧
  decodeIn .cfield8 { code := 0b01111011 } = .ok (.cReqUd2 true)

/-- Every well-formed instruction of every space is read back from its own encoding, with every operand
(30_encoding.md sections 1 to 5). -/
def Obligations.DecodeOfEncodeIsTheInstruction : Prop :=
  ∀ i : Instr, i.WellFormed → decodeIn i.format (encode i) = .ok i

/-- The other direction: whatever a space's decoder accepts is a well-formed instruction of that space, and its
encoding is the packet it was read from (but for the operands of a reserved command code, which are not read, R72). -/
def Obligations.EncodeOfDecodeIsThePacket : Prop :=
  ∀ (f : Format) (p : Packet) (i : Instr), decodeIn f p = .ok i →
    i.WellFormed ∧ i.format = f ∧ (encode i).code = p.code ∧
      ((f = .cmd8 → isCommandCode p.code = true) → encode i = p)

/-- 30_encoding.md R72: the reserved codes, whatever operands come with them, and the refusal that leaves the block as
it was. The refusal mark is R352's, outside the block's architectural state. -/
def Obligations.ReservedCodesAnswerIllegalCommand : Prop :=
  ∀ (p : Packet) (s : State),
    (p.code.toNat = 0x00 ∨ (0x06 ≤ p.code.toNat ∧ p.code.toNat ≤ 0x0F) ∨
      (0x12 ≤ p.code.toNat ∧ p.code.toNat ≤ 0x1F) ∨ (0x22 ≤ p.code.toNat ∧ p.code.toNat ≤ 0x2F) ∨
      0x32 ≤ p.code.toNat) →
    decode p = .ok (.illegalCommand p.code) ∧
      exec (.illegalCommand p.code) s =
        .next { s with results := s.results ++ [.illegalCommand], refusalMark := true }

/-! ### Step and reset -/

/-- The block takes the oldest command the host has issued, reads it with the decoder and runs it (00_scope.md R6, R7;
20_memory.md R61). -/
def Obligations.StepRunsTheNextCommand : Prop :=
  ∀ (s : State) (p : Packet) (ps : List Packet) (i : Instr), s.pending = p :: ps → decode p = .ok i →
    step s = exec i { s with pending := ps }

/-- With no command issued the block keeps its state (60_exceptions.md R314). What is no command is refused by name:
that is the model's choice (notes/assumptions/4.md). -/
def Obligations.StepWithoutACommand : Prop :=
  (∀ s : State, s.pending = [] → step s = .next s) ∧
  (∀ (s : State) (p : Packet) (ps : List Packet) (e : DecodeError), s.pending = p :: ps → decode p = .error e →
    step s = .refused (.malformedCommand e))

/-- 10_state.md R36: what power-on reset and RESET leave in the registers that have a reset value, and STATUS; RESET
answers STATUS and touches nothing outside the parser but the draw counter. -/
def Obligations.ResetGivesTheResetState : Prop :=
  (State.reset.parser.st = .expectStart ∧ State.reset.parser.frameReady = false ∧
    State.reset.parser.errEvent = false ∧ State.reset.parser.lastErr = none ∧
    State.reset.parser.status = 0x00000000#32) ∧
  (∀ s : State, ∃ (p : Parser) (n : Nat),
    exec .reset s = .next { s with parser := p, draws := n, results := s.results ++ [.status 0x00000000#32] } ∧
      p.st = .expectStart ∧ p.frameReady = false ∧ p.errEvent = false ∧ p.lastErr = none ∧
      p.status = 0x00000000#32)

/-- The reset state meets the invariant of the next statement. -/
def Obligations.ResetStateMeetsTheInvariant : Prop := State.reset.Inv

/-- 10_state.md R31 and R32, from every state that meets them: a frame is retained only in EXPECT_START; in
EXPECT_DATA and EXPECT_CHECKSUM the counters and the running checksum fit the bytes taken; the decoder holds no state
between commands; EXPECT_START2 is held only where P_LONG_START2 is true. -/
def Obligations.StepKeepsTheInvariant : Prop :=
  ∀ s t : State, s.Inv → step s = .next t → t.Inv

/-- 00_scope.md R17 and 60_exceptions.md R301: no command of the block faults or is left without a result. -/
def Obligations.IssuedCommandsAlwaysComplete : Prop :=
  ∀ s : State, s.Inv → s.WellIssued →
    ∃ t, step s = .next t ∧ (s.pending ≠ [] → ∃ r, t.results = s.results ++ [r])

/-! ### The arms of PUSH_BYTE (41_parser.md R120 to R131) -/

/-- R120 and R121. -/
def Obligations.StartAndLengthArms : Prop :=
  ∀ (s : State) (b : Byte),
    (s.parser.st = .expectStart →
      exec (.armExpectStart b) s =
        .next
          { s with
            parser :=
              if b = 0xE5 then { s.parser with fr := .single, frameReady := true, st := .expectStart }
              else if b = 0x10 then { s.parser with wKind := .short, st := .expectControl }
              else if b = 0x68 then { s.parser with wKind := .long, st := .expectLength }
              else { s.parser with errEvent := true, lastErr := some .badStart, st := .expectStart } }) ∧
    (s.parser.st = .expectLength →
      exec (.armExpectLength b) s =
        .next
          { s with
            parser :=
              if b = 0 ∨ b = 1 ∨ b = 2 then
                { s.parser with errEvent := true, lastErr := some .lengthRange, st := .expectStart }
              else { s.parser with wLen := b, st := .expectLengthRepeat } })

/-- R122 and R123. -/
def Obligations.LengthRepeatAndStart2Arms : Prop :=
  ∀ (s : State) (b : Byte),
    (s.parser.st = .expectLengthRepeat →
      exec (.armExpectLengthRepeat b) s =
        .next
          { s with
            parser :=
              if b ≠ s.parser.wLen then
                { s.parser with errEvent := true, lastErr := some .lengthMismatch, st := .expectStart }
              else if s.params.longStart2 = true then { s.parser with st := .expectStart2 }
              else { s.parser with st := .expectControl } }) ∧
    (s.parser.st = .expectStart2 →
      exec (.armExpectStart2 b) s =
        .next
          { s with
            parser :=
              if b ≠ 0x68 then
                { s.parser with errEvent := true, lastErr := some .badStart2, st := .expectStart }
              else { s.parser with st := .expectControl } })

/-- R124, R125 and R126. -/
def Obligations.FieldArms : Prop :=
  ∀ (s : State) (b : Byte),
    (s.parser.st = .expectControl →
      exec (.armExpectControl b) s =
        .next { s with parser := { s.parser with wC := b, wSum := b, st := .expectAddress } }) ∧
    (s.parser.st = .expectAddress →
      exec (.armExpectAddress b) s =
        .next
          { s with
            parser :=
              { s.parser with
                wA := b, wSum := BitVec.ofNat 8 ((s.parser.wSum.toNat + b.toNat) % 256),
                st := if s.parser.wKind = .short then .expectChecksum else .expectControlInfo } }) ∧
    (s.parser.st = .expectControlInfo → 3 ≤ s.parser.wLen.toNat →
      exec (.armExpectControlInfo b) s =
        .next
          { s with
            parser :=
              { s.parser with
                wCI := b, wSum := BitVec.ofNat 8 ((s.parser.wSum.toNat + b.toNat) % 256),
                wRem := BitVec.ofNat 8 (s.parser.wLen.toNat - 3), wIdx := 0,
                st := if s.parser.wLen.toNat = 3 then .expectChecksum else .expectData } })

/-- R127, where W_IDX is an index of BUF and W_REM counts a byte still to come (10_state.md R32): the byte goes to
BUF[W_IDX] and nowhere else. -/
def Obligations.DataArm : Prop :=
  ∀ (s : State) (b : Byte), s.parser.st = .expectData → s.parser.wIdx.toNat ≤ 251 → 1 ≤ s.parser.wRem.toNat →
    ∃ buf : Vector Byte 252,
      exec (.armExpectData b) s =
        .next
          { s with
            parser :=
              { s.parser with
                buf := buf, wIdx := BitVec.ofNat 8 (s.parser.wIdx.toNat + 1),
                wSum := BitVec.ofNat 8 ((s.parser.wSum.toNat + b.toNat) % 256),
                wRem := BitVec.ofNat 8 (s.parser.wRem.toNat - 1),
                st := if s.parser.wRem.toNat = 1 then .expectChecksum else .expectData } } ∧
        ∀ j : Fin 252, buf[j] = if j.val = s.parser.wIdx.toNat then b else s.parser.buf[j]

/-- R128, R129 and R131. -/
def Obligations.ChecksumAndStopArms : Prop :=
  ∀ (s : State) (b : Byte),
    (s.parser.st = .expectChecksum →
      exec (.armExpectChecksum b) s =
        .next
          { s with
            parser :=
              if b ≠ s.parser.wSum then
                { s.parser with errEvent := true, lastErr := some .checksum, st := .expectStart }
              else { s.parser with st := .expectStop } }) ∧
    (s.parser.st = .expectStop →
      exec (.armExpectStop b) s =
        .next
          { s with
            parser :=
              if b ≠ 0x16 then
                { s.parser with errEvent := true, lastErr := some .badStop, st := .expectStart }
              else
                { s.parser with
                  fr :=
                    if s.parser.wKind = .short then .short s.parser.wC s.parser.wA
                    else if s.parser.wLen.toNat = 3 then .control s.parser.wC s.parser.wA s.parser.wCI
                    else
                      .long s.parser.wC s.parser.wA s.parser.wCI
                        (s.parser.buf.toList.take (s.parser.wLen.toNat - 3)),
                  frameReady := true, st := .expectStart } })

/-- The three first bytes of a frame have the effects of R120's first three cases. -/
def Obligations.FirstByteRows : Prop :=
  ∀ s : State, s.parser.st = .expectStart →
    exec .frameSingle s =
      .next { s with parser := { s.parser with fr := .single, frameReady := true, st := .expectStart } } ∧
    exec .frameShort s = .next { s with parser := { s.parser with wKind := .short, st := .expectControl } } ∧
    exec .frameControlOrLong s = .next { s with parser := { s.parser with wKind := .long, st := .expectLength } }

/-- The C values that 30_encoding.md R81 names are taken like any other C value (R79, 41_parser.md R124). -/
def Obligations.NamedControlValues : Prop :=
  ∀ s : State, s.parser.st = .expectControl →
    ∀ (i : Instr) (c : Byte),
      (i, c) ∈
        [(Instr.cSndNke, 0x40#8), (.cSndUd false, 0x53), (.cSndUd true, 0x73), (.cReqUd2 false, 0x5B),
          (.cReqUd2 true, 0x7B), (.cReqUd1 false, 0x5A), (.cReqUd1 true, 0x7A), (.cRspUd false false, 0x08),
          (.cRspUd false true, 0x18), (.cRspUd true false, 0x28), (.cRspUd true true, 0x38)] →
      exec i s = .next { s with parser := { s.parser with wC := c, wSum := c, st := .expectAddress } }

/-- Where nothing selects it, a row that is no command is refused by name: the model's choice
(notes/assumptions/3.md), from 41_parser.md R119's "exactly one arm runs". -/
def Obligations.UnselectedRowsAreRefused : Prop :=
  ∀ (s : State) (i : Instr),
    (i.format = .wireStart8 → s.parser.st ≠ .expectStart → exec i s = .refused .notSelected) ∧
    (i.format = .cfield8 → s.parser.st ≠ .expectControl → exec i s = .refused .notSelected) ∧
    (i.format = .state4 → (encode i).code ≠ s.parser.st.code.setWidth 8 → exec i s = .refused .notSelected) ∧
    (i.format = .dif8 → s.drd.phase ≠ .dif → exec i s = .refused .notSelected) ∧
    (i.format = .dife8 → s.drd.phase ≠ .dife → exec i s = .refused .notSelected) ∧
    (i.format = .vif8 → s.drd.phase ≠ .vif → exec i s = .refused .notSelected) ∧
    (i.format = .vife8 → s.drd.phase ≠ .vife → exec i s = .refused .notSelected) ∧
    (i.format = .lvar8 → s.drd.phase ≠ .lvar → exec i s = .refused .notSelected)

/-! ### PUSH_BYTE and PUSH_BUF as wholes -/

/-- R119: the two flags are cleared, the arm that ST's code selects runs on the byte, and STATUS after it is the
result. -/
def Obligations.PushByteRunsTheSelectedArm : Prop :=
  ∀ (s : State) (b : Byte),
    ∃ i, decodeIn .state4 { code := s.parser.st.code.setWidth 8, operands := [b] } = .ok i ∧
      exec (.pushByte b) s =
        match exec i { s with parser := { s.parser with frameReady := false, errEvent := false } } with
        | .next t => .next { t with results := t.results ++ [.status t.parser.status] }
        | .fault e => .fault e
        | .refused r => .refused r

/-- PUSH_BYTE completes wherever W_IDX is an index of BUF in EXPECT_DATA (10_state.md R32), and its frame: FR changes
only when a frame completes (R30), BUF only at W_IDX in EXPECT_DATA (20_memory.md R51), nothing outside the parser but
the result. -/
def Obligations.PushByteCompletes : Prop :=
  ∀ (s : State) (b : Byte), (s.parser.st = .expectData → s.parser.wIdx.toNat ≤ 251) →
    ∃ p, exec (.pushByte b) s = .next { s with parser := p, results := s.results ++ [.status p.status] } ∧
      (p.frameReady = false → p.fr = s.parser.fr) ∧
      (∀ j : Fin 252,
        p.buf[j] = if s.parser.st = .expectData ∧ j.val = s.parser.wIdx.toNat then b else s.parser.buf[j])

/-- BUF has the indices 0 to 251 (20_memory.md R51). In states that no run reaches, a data byte for another index
stops the machine: the model's choice (notes/assumptions/6.md). -/
def Obligations.DataByteOutsideBufFaults : Prop :=
  ∀ (s : State) (b : Byte), s.parser.st = .expectData → 252 ≤ s.parser.wIdx.toNat →
    exec (.armExpectData b) s = .fault .bufIndex ∧ exec (.pushByte b) s = .fault .bufIndex

/-- 60_exceptions.md R303 and 10_state.md R27, R28: the cause tells the state; ERR_EVENT is this step's, LAST_ERR the
most recent error's. -/
def Obligations.ErrorCauseTellsTheState : Prop :=
  ∀ (s t : State) (b : Byte), exec (.pushByte b) s = .next t →
    match raisedCause s.parser b with
    | some cause =>
      t.parser.errEvent = true ∧ t.parser.lastErr = some cause ∧ t.parser.st = .expectStart ∧
        t.parser.frameReady = false
    | none => t.parser.errEvent = false ∧ t.parser.lastErr = s.parser.lastErr

/-- R130: a step advances ST, or completes a frame, or records one error. In EXPECT_DATA, "advances" counts W_REM
down. -/
def Obligations.PushedByteAdvancesCompletesOrErrs : Prop :=
  ∀ (s t : State) (b : Byte), s.Inv → exec (.pushByte b) s = .next t →
    (t.parser.errEvent = true ∧ t.parser.frameReady = false ∧ t.parser.st = .expectStart) ∨
    (t.parser.errEvent = false ∧ t.parser.frameReady = true ∧ t.parser.st = .expectStart) ∨
    (t.parser.errEvent = false ∧ t.parser.frameReady = false ∧ t.parser.st ≠ .expectStart ∧
      (s.parser.st.code.toNat < t.parser.st.code.toNat ∨
        (s.parser.st = .expectData ∧ t.parser.st = .expectData ∧
          t.parser.wRem.toNat + 1 = s.parser.wRem.toNat)))

/-- 10_state.md R24 and R25: every field of STATUS, and its reserved bits. -/
def Obligations.StatusWordFields : Prop :=
  ∀ p : Parser,
    p.status.extractLsb' 0 4 = p.st.code ∧ p.status.getLsbD 4 = p.frameReady ∧ p.status.getLsbD 5 = p.errEvent ∧
    p.status.extractLsb' 6 2 = 0#2 ∧ p.status.extractLsb' 8 4 = framingCode p.lastErr ∧
    p.status.extractLsb' 12 4 = 0#4 ∧
    p.status.extractLsb' 16 8 = (if p.st = .expectData then p.wRem else 0#8) ∧
    p.status.extractLsb' 24 8 = 0#8

/-- R132: PUSH_BUF is PUSH_BYTE of its bytes in turn, up to the byte that completes a frame; it answers how many bytes
it consumed, how many errors they recorded, and STATUS. -/
def Obligations.PushBufIsRepeatedPushByte : Prop :=
  (∀ s : State, Answers (.pushBuf []) s (.pushed 0 0 s.parser.status)) ∧
  (∀ (s t : State) (b : Byte) (bs : List Byte), exec (.pushByte b) s = .next t →
    (t.parser.frameReady = true →
      exec (.pushBuf (b :: bs)) s =
        .next
          { s with
            parser := t.parser,
            results := s.results ++ [.pushed 1 t.parser.errEvent.toNat t.parser.status] }) ∧
    (t.parser.frameReady = false →
      ∀ (u : State) (k errors : Nat),
        exec (.pushBuf bs) { s with parser := t.parser } = .next u →
        u.results = s.results ++ [.pushed k errors u.parser.status] →
        exec (.pushBuf (b :: bs)) s =
          .next
            { u with
              results := s.results ++ [.pushed (k + 1) (errors + t.parser.errEvent.toNat) u.parser.status] }))

/-- PUSH_BUF completes from every state that meets the invariant, whatever the bytes (R132): it consumes the whole
buffer unless a frame completes earlier, and counts at most one error a byte. -/
def Obligations.PushBufCompletes : Prop :=
  ∀ (s : State) (bs : List Byte), s.Inv →
    ∃ (p : Parser) (k errors : Nat),
      exec (.pushBuf bs) s = .next { s with parser := p, results := s.results ++ [.pushed k errors p.status] } ∧
        k ≤ bs.length ∧ errors ≤ k ∧ (k < bs.length → p.frameReady = true) ∧ (bs ≠ [] → 1 ≤ k)

/-- R140 and R141 with the layouts of 30_encoding.md R71. -/
def Obligations.GetStateAndGetFrame : Prop :=
  ∀ s : State,
    Answers .getState s (.status s.parser.status) ∧
    (s.parser.frameReady = false → Answers .getFrame s (.frame [0xFF])) ∧
    (s.parser.frameReady = true →
      exec .getFrame s =
        .next
          { s with
            parser := { s.parser with frameReady := if s.params.getFrameConsumes = true then false else true },
            framesOut := s.framesOut ++ [s.parser.fr],
            results :=
              s.results ++
                [.frame
                  (match s.parser.fr with
                    | .single => [0, 0, 0, 0, 0]
                    | .short c a => [1, c, a, 0, 0]
                    | .control c a ci => [2, c, a, ci, 0]
                    | .long c a ci data => [3, c, a, ci, BitVec.ofNat 8 data.length] ++ data)] })

/-! ### Checksum/Framing Codec (40_checksum.md) -/

/-- R100: the sum modulo 256, 8 bits wide, and no other effect. -/
def Obligations.ChecksumAnswersTheByteSum : Prop :=
  ∀ (s : State) (bs : List Byte), ChecksumIs s bs (BitVec.ofNat 8 ((bs.map BitVec.toNat).sum % 256))

/-- R101: the four laws of the checksum. -/
def Obligations.ChecksumLaws : Prop :=
  ∀ s : State,
    (∀ bs cs u v, ChecksumIs s bs u → ChecksumIs s cs v → ChecksumIs s (bs ++ cs) (u + v)) ∧
    (∀ bs cs u, bs.Perm cs → ChecksumIs s bs u → ChecksumIs s cs u) ∧
    (∀ (before after : List Byte) (x y u : Byte), x ≠ y → ChecksumIs s (before ++ x :: after) u →
      ChecksumIs s (before ++ y :: after) (u + (y - x)) ∧ u + (y - x) ≠ u) ∧
    (∀ (before between after : List Byte) (x y u : Byte),
      ChecksumIs s (before ++ x :: between ++ y :: after) u →
      ChecksumIs s (before ++ (x + 1) :: between ++ (y - 1) :: after) u)

/-- R103: the checks in wire order; the result is all that changes. -/
def Obligations.ValidateMarkersChecks : Prop :=
  ∀ (s : State) (start stop lenA lenB : Byte),
    Answers (.validateMarkers start stop lenA lenB) s
      (.markers
        (if start = 0xE5 then none
        else if start ≠ 0x10 ∧ start ≠ 0x68 then some .badStart
        else if start = 0x68 ∧ lenA ≠ lenB then some .lengthMismatch
        else if stop ≠ 0x16 then some .badStop
        else none))

/-! ### Encoder (42_encoder.md) -/

/-- R171 to R174 over the operand layout of 30_encoding.md R71: the wire bytes of each variant, the fields a variant
lacks ignored. -/
def Obligations.EncodeWritesTheFrame : Prop :=
  ∀ (s : State) (c a ci n : Byte) (data : List Byte), data.length = n.toNat →
    Answers (.encodeFrame ([0, c, a, ci, n] ++ data)) s (.bytes [0xE5]) ∧
    Answers (.encodeFrame ([1, c, a, ci, n] ++ data)) s
      (.bytes [0x10, c, a, BitVec.ofNat 8 ((c.toNat + a.toNat) % 256), 0x16]) ∧
    Answers (.encodeFrame ([2, c, a, ci, n] ++ data)) s
      (.bytes
        ([0x68, 0x03, 0x03] ++ (if s.params.longStart2 = true then [0x68] else []) ++
          [c, a, ci, BitVec.ofNat 8 ((c.toNat + a.toNat + ci.toNat) % 256), 0x16])) ∧
    (n.toNat ≤ 252 →
      Answers (.encodeFrame ([3, c, a, ci, n] ++ data)) s
        (.bytes
          ([0x68, BitVec.ofNat 8 (3 + n.toNat), BitVec.ofNat 8 (3 + n.toNat)] ++
            (if s.params.longStart2 = true then [0x68] else []) ++ [c, a, ci] ++ data ++
            [BitVec.ofNat 8 ((c.toNat + a.toNat + ci.toNat + (data.map BitVec.toNat).sum) % 256), 0x16])))

/-- R175: the three checks in their order; an error answers no bytes and changes nothing. That an operand without byte 4
fails the second is the model's reading (notes/assumptions/12.md). -/
def Obligations.EncodeRejectsNonFrames : Prop :=
  ∀ (s : State) (operand : List Byte) (v : Byte), operand[0]? = some v →
    (3 < v.toNat → Answers (.encodeFrame operand) s (.encodingError .badVariant)) ∧
    (v.toNat ≤ 3 → (∀ n : Byte, operand[4]? = some n → operand.length ≠ 5 + n.toNat) →
      Answers (.encodeFrame operand) s (.encodingError .badOperand)) ∧
    (∀ n : Byte, v.toNat = 3 → operand[4]? = some n → operand.length = 5 + n.toNat → 252 < n.toNat →
      Answers (.encodeFrame operand) s (.encodingError .payloadTooLarge))

/-- 41_parser.md R133, with 42_encoder.md R176 and R177: from EXPECT_START the parser completes the frame f at the end
of w, with no error and no frame before, exactly when w is what ENCODE writes for f. -/
def Obligations.AcceptanceIsExact : Prop :=
  ∀ (s : State) (w : List Byte) (f : Frame), s.parser.st = .expectStart →
    (PushCompletes s w 0 f ↔ Frame.Legal f ∧ EncodesTo s f w)

/-- 30_encoding.md R97 with 42_encoder.md R177: LOOPBACK of any frame that fits emits exactly that frame, where LONG
without data comes back as CONTROL. -/
def Obligations.LoopbackDeliversTheFrame : Prop :=
  ∀ (s : State) (f : Frame), s.parser.st = .expectStart →
    (∀ c a ci data, f = .long c a ci data → data.length ≤ 252) →
    ∃ t, loopback f s = .next t ∧ t.framesOut = s.framesOut ++ [onTheWire f] ∧ t.parser.st = .expectStart ∧
      t.parser.lastErr = s.parser.lastErr

/-- 41_parser.md R134 and 70_reset_and_hazards.md R347: a valid frame is received after garbage that holds no start
byte, and after RESET; a stale 0x68 before it loses it. -/
def Obligations.Resynchronization : Prop :=
  (∀ (s : State) (garbage w : List Byte) (f : Frame), s.parser.st = .expectStart →
    (∀ b ∈ garbage, b ≠ 0x10 ∧ b ≠ 0x68 ∧ b ≠ 0xE5) → Frame.Legal f → EncodesTo s f w →
    PushCompletes s (garbage ++ w) garbage.length f) ∧
  (∀ (s u : State) (w : List Byte) (f : Frame), exec .reset s = .next u → Frame.Legal f → EncodesTo s f w →
    PushCompletes u w 0 f) ∧
  (∀ s : State, s.parser.st = .expectStart →
    ∃ t, exec (.pushBuf [0x68, 0x10, 0x7B, 0x01, 0x7C, 0x16]) s = .next t ∧
      t.results = s.results ++ [.pushed 6 4 0x00000120#32] ∧ t.parser.frameReady = false)

/-- 41_parser.md R135: from any state a run can be in, some number of at most 261 further bytes, whatever they are,
brings ST back to EXPECT_START. -/
def Obligations.AnyFrameEndsWithin261Bytes : Prop :=
  ∀ (s : State) (bs : List Byte), s.Inv → bs.length = 261 →
    ∃ k, 1 ≤ k ∧ k ≤ 261 ∧ ∃ t, exec (.pushBuf (bs.take k)) s = .next t ∧ t.parser.st = .expectStart

/-- 40_checksum.md R105 for a long frame: one wrong byte among C, A, CI and data gives CHECKSUM at the checksum byte
and BAD_START at the stop byte. -/
def Obligations.CorruptedByteIsCaught : Prop :=
  ∀ (s : State) (pre body : List Byte) (c a ci cs y : Byte) (data : List Byte) (k : Nat),
    s.parser.st = .expectStart → 1 ≤ data.length → body = [c, a, ci] ++ data →
    EncodesTo s (.long c a ci data) (pre ++ body ++ [cs, 0x16]) →
    pre.length = (if s.params.longStart2 = true then 4 else 3) → k < body.length → body[k]? ≠ some y →
    ∃ t u, exec (.pushBuf (pre ++ body.set k y ++ [cs])) s = .next t ∧
      t.results = s.results ++ [.pushed (pre.length + body.length + 1) 1 0x00000520#32] ∧
      exec (.pushByte 0x16) t = .next u ∧ u.results = t.results ++ [.status 0x00000120#32]

/-- 42_encoder.md R178, R179 and R181: ENCODE_PAYLOAD writes header, items and raw tail, or PAYLOAD_TOO_LARGE beyond
252 bytes, and reads no derived field of its operand. -/
def Obligations.EncodePayloadWritesTheWireFields : Prop :=
  ∀ (s : State) (r : UserDataResponse),
    ((payloadBytes s.params r).length ≤ 252 →
      Answers (.encodePayload r) s
        (.bytes (headerBytes r.header ++ (r.items.map (itemBytes s.params)).flatten ++ r.rawTail))) ∧
    (252 < (payloadBytes s.params r).length → Answers (.encodePayload r) s (.encodingError .payloadTooLarge)) ∧
    exec (.encodePayload (wireFields r)) s = exec (.encodePayload r) s

/-- 42_encoder.md R180: what DECODE_PAYLOAD answers, ENCODE_PAYLOAD writes back byte for byte. -/
def Obligations.PayloadRoundTrip : Prop :=
  ∀ (s : State) (ci : Byte) (data : List Byte), data.length ≤ 252 →
    ∃ (t : State) (r : UserDataResponse), exec (.decodePayload ci data) s = .next t ∧
      t.results = s.results ++ [.response r] ∧ Answers (.encodePayload r) t (.bytes data)

/-- 42_encoder.md R183: a received long frame, decoded and encoded again, gives its wire bytes. -/
def Obligations.TelegramReencodes : Prop :=
  ∀ (s : State) (w : List Byte) (c a ci : Byte) (data : List Byte), s.parser.st = .expectStart →
    PushCompletes s w 0 (.long c a ci data) →
    ∃ (t u : State) (r : UserDataResponse) (bytes : List Byte), exec (.decodePayload ci data) s = .next t ∧
      t.results = s.results ++ [.response r] ∧ Answers (.encodePayload r) t (.bytes bytes) ∧
      exec (.encodeFrame (frameLayout (.long c a r.ci bytes))) t = .next u ∧
      u.results = t.results ++ [.bytes w]

/-! ### Data Record Decoder (43_records.md) -/

/-- R225: the items of `decode_from(data, off)` cover the block from `off` on, each beginning where the last ended, and
their bytes are the block's. -/
def Obligations.ItemsPartitionTheBlock : Prop :=
  ∀ (s : State) (data : List Byte) (off : Nat), off ≤ data.length →
    let items := (s.decodeBlock data off).drd.items
    (items.map (itemBytes s.params)).flatten = data.drop off ∧ Contiguous s.params off items

/-- R209 and R200: the decoder that reads byte by byte answers what the item loop of R209's pseudocode computes on the
whole block. -/
def Obligations.DecodeCommandsRunTheItemLoop : Prop :=
  ∀ (s : State) (data : List Byte),
    exec (.decodeRecords data) s =
      .next
        { s with
          drd := Drd.idle,
          results :=
            s.results ++
              [.records
                (recordList (ItemLoop.decodeFrom s.params data 0).1 (ItemLoop.decodeFrom s.params data 0).2)] } ∧
    ∀ (ci : Byte) (kind : HeaderKind), headerKindOf s.params ci = some kind → kind.length ≤ data.length →
      exec (.decodePayload ci data) s =
        .next
          { s with
            drd := Drd.idle,
            results :=
              s.results ++
                [.response
                  (udr s.params ci (parseHeader kind (data.take kind.length))
                    (ItemLoop.decodeFrom s.params data kind.length).1 []
                    (ItemLoop.decodeFrom s.params data kind.length).2)] }

/-- R204 and R205: a payload that is not record-decoded keeps all its bytes in raw_tail and reports one error; by
default every CI but 0x72, 0x78 and 0x7A is such. -/
def Obligations.UndecodedPayloads : Prop :=
  (∀ ci : Byte, headerKindOf Params.default ci = none ↔ ci ≠ 0x72 ∧ ci ≠ 0x78 ∧ ci ≠ 0x7A) ∧
  ∀ (s : State) (ci : Byte) (data : List Byte) (cause : UnsupportedCause),
    ((headerKindOf s.params ci = none ∧ cause = .unsupportedCi) ∨
      (∃ kind, headerKindOf s.params ci = some kind ∧ data.length < kind.length ∧ cause = .headerTruncated)) →
    ∃ r, exec (.decodePayload ci data) s =
        .next { s with drd := Drd.idle, results := s.results ++ [.response r] } ∧
      r.ci = ci ∧ r.header = .absent ∧ r.items = [] ∧ r.rawTail = data ∧ r.errors = [(cause, 0)] ∧
      r.dataBlockCount = 0

/-- R207 and R208: what dataBlockCount counts, and what makes isLastPackage false under each P_MORE_SOURCE. -/
def Obligations.BlockCountAndLastPackage : Prop :=
  ∀ (s t : State) (ci : Byte) (data : List Byte) (r : UserDataResponse),
    exec (.decodePayload ci data) s = .next t → t.results = s.results ++ [.response r] →
    r.dataBlockCount = (r.items.filter isDataBlock).length ∧
    (s.params.moreSource = .dif1F →
      (r.isLastPackage = false ↔ ∃ offset bytes, Item.manufData offset 0x1F bytes ∈ r.items)) ∧
    (∀ m, s.params.moreSource = .ciMask m → (r.isLastPackage = false ↔ ci &&& m ≠ 0))

/-- R211 to R214, where the decoder is at a DIF's place. -/
def Obligations.SpecialDifRows : Prop :=
  ∀ s : State, s.drd.phase = .dif →
    CompletesItem .difIdleFill s 0 (.fill s.drd.start) [] ∧
    CompletesItem .difGlobalReadout s 0 (.globalReadout s.drd.start) [] ∧
    (∀ (i : Instr) (dif : Byte), (i, dif) ∈ [(Instr.difManufData, 0x0F#8), (.difManufDataMore, 0x1F)] →
      ∃ e, exec i s = .next { s with drd := e } ∧ e.items = s.drd.items ++ [.manufData s.drd.start dif s.drd.rest] ∧
        e.errors = s.drd.errors ∧ e.phase = .done ∧ e.rest = []) ∧
    (∀ high : BitVec 4, (Instr.difReserved high).WellFormed →
      StopsDecoding (.difReserved high) s (high ++ 0xF#4 : BitVec 8) .reservedDif)

/-- R209 and 30_encoding.md R87, R88: a DIF with a data field opens a record; data field 0xE is a reserved DIF where
P_BCD12 is false (44_values.md R257). -/
def Obligations.DataDifRows : Prop :=
  ∀ (s : State) (h : DifHead) (i : Instr) (df : BitVec 4), s.drd.phase = .dif → (i, df) ∈ dataDifRows h →
    ((df = 0xE → s.params.bcd12 = true) →
      exec i s =
        .next
          { s with
            drd :=
              { s.drd with
                dif := h.byte df, taken := s.drd.taken ++ [h.byte df], pos := s.drd.pos + 1,
                phase := if h.ext = true then .dife else .vif } }) ∧
    (df = 0xE → s.params.bcd12 = false → StopsDecoding i s (h.byte df) .reservedDif)

/-- R215: a DIFE joins the chain and its EXT bit says what follows; one more than P_MAX_DIFE stops the decoder. -/
def Obligations.DifeRow : Prop :=
  ∀ (s : State) (ext subunit : Bool) (tariff : BitVec 2) (storage : BitVec 4), s.drd.phase = .dife →
    (s.drd.dife.length ≠ s.params.maxDife →
      exec (.dife ext subunit tariff storage) s =
        .next
          { s with
            drd :=
              { s.drd with
                dife := s.drd.dife ++ [difeByte ext subunit tariff storage],
                taken := s.drd.taken ++ [difeByte ext subunit tariff storage], pos := s.drd.pos + 1,
                phase := if ext = true then .dife else .vif } }) ∧
    (s.drd.dife.length = s.params.maxDife →
      StopsDecoding (.dife ext subunit tariff storage) s (difeByte ext subunit tariff storage) .difeOverflow)

/-- R216, R217: a VIF with EXT = 1 opens the VIFE chain; where the VIF is the plain-text one, under AFTER_VIFE_CHAIN no
text is read yet. -/
def Obligations.VifRowsOpenTheChain : Prop :=
  ∀ (s : State) (value : BitVec 7) (i : Instr) (v : BitVec 7), s.drd.phase = .vif →
    ((i, v) ∈ plainVifRows true value ∨
      (i, v) = (.vifPlainText true, 0x7C#7) ∧ s.params.plainTextPos = .afterVifeChain) →
    exec i s =
      .next
        { s with
          drd :=
            { s.drd with
              vif := vifByte true v, taken := s.drd.taken ++ [vifByte true v], pos := s.drd.pos + 1,
              phase := .vife } }

/-- R216, R218, R219, R220, R222: at the end of the chain, after the plain text where it stands there, a data field of
known width completes the record when its value bytes are there, as a RECORD or, outside P_VIF_SUPPORTED, as an OPAQUE
item with an error; when they are not there, or the text is not, the decoder stops; data field 0xD goes on to the LVAR
byte. -/
def Obligations.EndOfChainCompletesTheRecord : Prop :=
  ∀ (s : State) (i : Instr) (x vif : Byte) (vife : List Byte) (textHere : Prop), EndsChain s i x vif vife textHere →
    (∀ (text after : List Byte) (m : Nat), TextThen s.drd textHere text after m →
      (∀ (df : BitVec 4) (n : Nat), (df, n) ∈ fieldWidths → dataField s.drd.dif = df →
        (n ≤ after.length → vifValue vif = 0x7F ∨ vifSupported s.params vif vife = true →
          CompletesItem i s (m + n)
            (.record
              (recordWith s.params s.drd vif text vife (after.take n)
                (decodeValue s.params df (after.take n) vif))) []) ∧
        (n ≤ after.length → vifValue vif ≠ 0x7F → vifSupported s.params vif vife = false →
          CompletesItem i s (m + n)
            (.opaqueBytes s.drd.start .vifUnsupported (s.drd.taken ++ [x] ++ s.drd.rest.take (m + n)))
            [(.vifUnsupported, s.drd.start)]) ∧
        (after.length < n → StopsDecoding i s x .truncated)) ∧
      (dataField s.drd.dif = 0xD →
        exec i s =
          .next
            { s with
              drd :=
                { s.drd with
                  vif := vif, vife := vife, text := text, taken := s.drd.taken ++ [x] ++ s.drd.rest.take m,
                  rest := after, pos := s.drd.pos + 1 + m, phase := .lvar } })) ∧
    (textHere → (s.drd.rest = [] ∨ ∃ k more, s.drd.rest = k :: more ∧ more.length < k.toNat) →
      StopsDecoding i s x .truncated)

/-- R216 under AFTER_VIF with EXT = 1: the plain-text VIF reads its length byte and characters at once, before any
VIFE; without them the decoder stops. -/
def Obligations.PlainTextVifRow : Prop :=
  ∀ s : State, s.drd.phase = .vif → s.params.plainTextPos = .afterVif →
    (∀ (k : Byte) (chars more : List Byte), s.drd.rest = k :: (chars ++ more) → chars.length = k.toNat →
      exec (.vifPlainText true) s =
        .next
          { s with
            drd :=
              { s.drd with
                vif := 0xFC, text := chars, taken := s.drd.taken ++ [0xFC, k] ++ chars, rest := more,
                pos := s.drd.pos + 2 + k.toNat, phase := .vife } }) ∧
    ((s.drd.rest = [] ∨ ∃ k more, s.drd.rest = k :: more ∧ more.length < k.toNat) →
      StopsDecoding (.vifPlainText true) s 0xFC .truncated)

/-- R217 and R215: a VIFE with EXT = 1 joins the chain and another VIFE is read; one more than P_MAX_VIFE stops the
decoder. The last VIFE of a chain is EndOfChainCompletesTheRecord's. -/
def Obligations.VifeRow : Prop :=
  ∀ (s : State) (value : BitVec 7), s.drd.phase = .vife →
    (∀ ext, s.drd.vife.length = s.params.maxVife →
      StopsDecoding (.vife ext value) s (vifByte ext value) .vifeOverflow) ∧
    (s.drd.vife.length ≠ s.params.maxVife →
      exec (.vife true value) s =
        .next
          { s with
            drd :=
              { s.drd with
                vife := s.drd.vife ++ [vifByte true value], taken := s.drd.taken ++ [vifByte true value],
                pos := s.drd.pos + 1, phase := .vife } })

/-- R218 and 44_values.md R258 to R261, in a record whose data field is 0xD: LVAR gives the length and the kind of the
rest of the value; a manufacturer VIF keeps LVAR and value raw, and outside P_VIF_SUPPORTED the record is OPAQUE
(R222). -/
def Obligations.LvarRows : Prop :=
  ∀ s : State, s.drd.phase = .lvar → dataField s.drd.dif = 0xD →
    (∀ (n : Byte) (k : BitVec 4) (i : Instr) (lv : Byte) (count : Nat), (i, lv, count) ∈ lvarRows n k →
      (lv.toNat ≤ 0xBF ∨ s.params.lvarExtended = true) →
      (s.drd.rest.length < count → StopsDecoding i s lv .truncated) ∧
      (count ≤ s.drd.rest.length → vifValue s.drd.vif = 0x7F →
        CompletesItem i s count
          (.record
            (recordWith s.params s.drd s.drd.vif s.drd.text s.drd.vife (lv :: s.drd.rest.take count)
              (.manufRaw (lv :: s.drd.rest.take count)))) []) ∧
      (count ≤ s.drd.rest.length → vifValue s.drd.vif ≠ 0x7F →
        vifSupported s.params s.drd.vif s.drd.vife = false →
        CompletesItem i s count
          (.opaqueBytes s.drd.start .vifUnsupported (s.drd.taken ++ [lv] ++ s.drd.rest.take count))
          [(.vifUnsupported, s.drd.start)]) ∧
      (count ≤ s.drd.rest.length → vifValue s.drd.vif ≠ 0x7F →
        vifSupported s.params s.drd.vif s.drd.vife = true →
        ∃ value,
          CompletesItem i s count
            (.record
              (recordWith s.params s.drd s.drd.vif s.drd.text s.drd.vife (lv :: s.drd.rest.take count) value)) [] ∧
          (i = .lvarText n → value = .text (s.drd.rest.take count).reverse) ∧
          (i = .lvarBinary k → value = .int (intOf s.params (s.drd.rest.take count))) ∧
          (∀ v, v < 100 ^ count → s.drd.rest.take count = packBcd count v →
            (i = .lvarBcdPos k → value = .bcd v) ∧ (i = .lvarBcdNeg k → value = .bcd (-(v : Int)))) ∧
          ((∃ b ∈ s.drd.rest.take count, 9 < b.toNat % 16 ∨ 9 < b.toNat / 16) →
            i = .lvarBcdPos k ∨ i = .lvarBcdNeg k → value = .bcdInvalid (s.drd.rest.take count)))) ∧
    (∀ (n : Byte) (k : BitVec 4) (i : Instr) (lv : Byte) (count : Nat), (i, lv, count) ∈ lvarRows n k →
      0xC0 ≤ lv.toNat → s.params.lvarExtended = false → StopsDecoding i s lv .lvarReserved) ∧
    (∀ lv : Byte, (Instr.lvarReserved lv).WellFormed → StopsDecoding (.lvarReserved lv) s lv .lvarReserved)

/-! ### Values (44_values.md) -/

/-- R250: the kind of value each data field gives, and MANUF_RAW for a manufacturer-specific VIF. -/
def Obligations.DecodeValueByDataField : Prop :=
  ∀ (cfg : Params) (vb : List Byte) (vif : Byte),
    (vifValue vif = 0x7F → ∀ df, decodeValue cfg df vb vif = .manufRaw vb) ∧
    (vifValue vif ≠ 0x7F →
      (∀ df, df ∈ [0x0#4, 0x8] → decodeValue cfg df vb vif = .none) ∧
      (∀ df, df ∈ [0x1#4, 0x2, 0x3, 0x4, 0x6, 0x7] → decodeValue cfg df vb vif = .int (intOf cfg vb)) ∧
      decodeValue cfg 0x5 vb vif = .real (BitVec.ofNat 32 (leNat vb)) ∧
      (∀ df, df ∈ [0x9#4, 0xA, 0xB, 0xC, 0xE] → decodeValue cfg df vb vif = bcdOf vb) ∧
      (∀ lv bs, vb = lv :: bs → decodeValue cfg 0xD vb vif = lvarValueOf cfg lv bs))

/-- R252: two's complement of the field's width where P_INT_SIGNED is true, the unsigned value where it is false. -/
def Obligations.BinaryIntegersAreTwosComplement : Prop :=
  ∀ (cfg : Params) (vb : List Byte),
    (cfg.intSigned = false → intOf cfg vb = (leNat vb : Int)) ∧
    (cfg.intSigned = true → intOf cfg vb = (BitVec.ofNat (8 * vb.length) (leNat vb)).toInt) ∧
    leNat vb < 2 ^ (8 * vb.length)

/-- R254, R255 and R256: packed BCD gives its number; a top digit 0xF negates it and counts as 0; any other digit
above 9 gives BCD_INVALID. -/
def Obligations.PackedBcdDecodes : Prop :=
  (∀ k v : Nat, v < 100 ^ k → bcdOf (packBcd k v) = .bcd v) ∧
  (∀ k v : Nat, v < 10 * 100 ^ k →
    bcdOf (packBcd k (v % 100 ^ k) ++ [BitVec.ofNat 8 (0xF0 + v / 100 ^ k)]) = .bcd (-(v : Int))) ∧
  (∀ (before after : List Byte) (b : Byte),
    (9 < b.toNat % 16 ∨ (9 < b.toNat / 16 ∧ (after ≠ [] ∨ b.toNat / 16 ≠ 0xF))) →
    bcdOf (before ++ b :: after) = .bcdInvalid (before ++ b :: after))

/-- 30_encoding.md R91: the sums that assemble storage, tariff and subunit. -/
def Obligations.DifeMetadataSums : Prop :=
  ∀ (dif : Byte) (dife : List Byte),
    storageOf dif dife =
      (dif.extractLsb' 6 1).toNat +
        ((dife.zipIdx).map fun e => (e.1.extractLsb' 0 4).toNat <<< (1 + 4 * e.2)).sum ∧
    difeTariff dife = ((dife.zipIdx).map fun e => (e.1.extractLsb' 4 2).toNat <<< (2 * e.2)).sum ∧
    difeSubunit dife = ((dife.zipIdx).map fun e => (e.1.extractLsb' 6 1).toNat <<< e.2).sum

/-- R263 and R264: packing the letters gives the value back, and the letters of a packing are those packed. -/
def Obligations.ManufacturerLettersRoundTrip : Prop :=
  (∀ man : BitVec 16, man.getLsbD 15 = false → packLetters (lettersOf man) = man) ∧
  (∀ l : Letters, 0x40 ≤ l.x.toNat ∧ l.x.toNat ≤ 0x5F → 0x40 ≤ l.y.toNat ∧ l.y.toNat ≤ 0x5F →
    0x40 ≤ l.z.toNat ∧ l.z.toNat ≤ 0x5F → lettersOf (packLetters l) = l)

/-! ### Whole-machine rules -/

/-- 10_state.md R33 and R28, 20_memory.md R65: which commands write the parser; that the parameters, the commands
waiting and the results given are no command's to change; and that only RESET clears LAST_ERR. -/
def Obligations.OnlyParserCommandsWriteTheParser : Prop :=
  ∀ (i : Instr) (s t : State), i.format = .cmd8 → exec i s = .next t →
    t.params = s.params ∧ t.pending = s.pending ∧ (∃ r, t.results = s.results ++ [r]) ∧
    ((∀ b, i ≠ .pushByte b) → (∀ bs, i ≠ .pushBuf bs) → i ≠ .reset →
      { t.parser with frameReady := s.parser.frameReady } = s.parser ∧
        (i ≠ .getFrame → t.parser.frameReady = s.parser.frameReady)) ∧
    (s.parser.lastErr ≠ none → t.parser.lastErr = none → i = .reset)

/-- 20_memory.md R59: the commands that change no state answer the same result when repeated. -/
def Obligations.PureCommandsAreIdempotent : Prop :=
  ∀ (i : Instr) (s : State), s.drd = Drd.idle →
    (i = .getState ∨ (∃ bs, i = .checksum bs) ∨ (∃ x y u v, i = .validateMarkers x y u v) ∨
      (∃ op, i = .encodeFrame op) ∨ (∃ r, i = .encodePayload r) ∨ (∃ ci data, i = .decodePayload ci data) ∨
      (∃ data, i = .decodeRecords data)) →
    ∃ r, Answers i s r ∧ Answers i { s with results := s.results ++ [r] } r

/-- 10_state.md R36 and 70_reset_and_hazards.md R340: what the unspecified registers hold is never seen. Two machines
that agree but for dead registers answer the same results to the same commands and stay so. -/
def Obligations.UnspecifiedRegistersAreNeverSeen : Prop :=
  ∀ s t : State, s.Inv → t.Inv → s.SameSeen t →
    match step s, step t with
    | .next s', .next t' => s'.SameSeen t'
    | .refused r, .refused r' => r = r'
    | _, _ => False
end

