-- ==== Sys2Proof/Laws/Bytes.lean ====
section
/-! SUPPORT. The fields of the byte encodings (30_encoding.md R87, R90, R92, R93), each read back from the byte that was put
together from them. -/

namespace Sys2Proof.Machine

/-! ### DIF -/

@[simp] theorem dataField_difByte (h : DifHead) (df : BitVec 4) : dataField (h.byte df) = df := by
  obtain ⟨ext, lsb, function⟩ := h
  revert ext lsb function df
  decide

@[simp] theorem extBit_difByte (h : DifHead) (df : BitVec 4) : extBit (h.byte df) = h.ext := by
  obtain ⟨ext, lsb, function⟩ := h
  revert ext lsb function df
  decide

@[simp] theorem difHeadOf_difByte (h : DifHead) (df : BitVec 4) : difHeadOf (h.byte df) = h := by
  obtain ⟨ext, lsb, function⟩ := h
  revert ext lsb function df
  decide

/-- A DIF with a data field is none of the special DIFs (R89). -/
theorem difByte_not_special (h : DifHead) (df : BitVec 4) (hd : df ≠ 0xF) :
    h.byte df ≠ 0x2F#8 ∧ ¬ (h.byte df = 0x0F#8 ∨ h.byte df = 0x1F#8) ∧ h.byte df ≠ 0x7F#8 := by
  obtain ⟨ext, lsb, function⟩ := h
  revert ext lsb function df
  decide

/-- A reserved DIF is none of the special DIFs (R89). -/
theorem reservedDif_not_special (high : BitVec 4) (hw : (Instr.difReserved high).WellFormed) :
    lvarByte high 0xF ≠ 0x2F#8 ∧ ¬ (lvarByte high 0xF = 0x0F#8 ∨ lvarByte high 0xF = 0x1F#8) ∧
      lvarByte high 0xF ≠ 0x7F#8 ∧ dataField (lvarByte high 0xF) = 0xF#4 := by
  revert hw high
  decide

/-! ### DIFE, VIF, VIFE -/

@[simp] theorem extBit_difeByte (ext subunit : Bool) (tariff : BitVec 2) (storage : BitVec 4) :
    extBit (difeByte ext subunit tariff storage) = ext := by
  revert ext subunit tariff storage
  decide

@[simp] theorem vifValue_vifByte (ext : Bool) (v : BitVec 7) : vifValue (vifByte ext v) = v := by
  revert ext v
  decide

@[simp] theorem extBit_vifByte (ext : Bool) (v : BitVec 7) : extBit (vifByte ext v) = ext := by
  revert ext v
  decide

/-- A VIF byte is its value bits and its EXT bit. -/
theorem vifByte_of_fields (x : Byte) : vifByte (extBit x) (vifValue x) = x := by
  revert x
  decide

/-! ### LVAR -/

/-- The LVAR BCD and binary rows: the byte's range and its count (44_values.md R261). -/
theorem lvarByte_binary (k : BitVec 4) : 0xE0 ≤ (lvarByte 0xE k).toNat ∧ (lvarByte 0xE k).toNat ≤ 0xEF ∧
    lvarCount (lvarByte 0xE k) = k.toNat := by
  revert k
  decide

theorem lvarByte_bcdPos (k : BitVec 4) (h : k.toNat ≤ 9) : 0xC0 ≤ (lvarByte 0xC k).toNat ∧
    (lvarByte 0xC k).toNat ≤ 0xC9 ∧ lvarCount (lvarByte 0xC k) = k.toNat := by
  revert h k
  decide

theorem lvarByte_bcdNeg (k : BitVec 4) (h : k.toNat ≤ 9) : 0xD0 ≤ (lvarByte 0xD k).toNat ∧
    (lvarByte 0xD k).toNat ≤ 0xD9 ∧ lvarCount (lvarByte 0xD k) = k.toNat := by
  revert h k
  decide

/-! ### Little-endian values (00_scope.md R15) -/

@[simp] theorem leNat_nil : leNat [] = 0 := rfl

@[simp] theorem leNat_cons (b : Byte) (bs : List Byte) : leNat (b :: bs) = b.toNat + 256 * leNat bs := rfl

/-- The value of a byte sequence fits its width. -/
theorem leNat_lt (bs : List Byte) : leNat bs < 2 ^ (8 * bs.length) := by
  induction bs with
  | nil => simp
  | cons b bs ih =>
    have hb := b.isLt
    have e : 2 ^ (8 * (b :: bs).length) = 256 * 2 ^ (8 * bs.length) := by
      rw [List.length_cons, Nat.mul_add, Nat.pow_add, Nat.mul_comm]
    rw [leNat_cons, e]
    omega

/-- A 16-bit field is read back from its bytes (20_memory.md R54). -/
theorem le16_of_bytes16 (v : BitVec 16) : bytes16 v = [v.extractLsb' 0 8, v.extractLsb' 8 8] ∧
    le16 (v.extractLsb' 0 8) (v.extractLsb' 8 8) = v := by
  refine ⟨rfl, ?_⟩
  apply BitVec.eq_of_getLsbD_eq
  intro i hi
  simp only [le16, BitVec.getLsbD_append, BitVec.getLsbD_extractLsb']
  by_cases h : i < 8
  · simp [h]
  · simp [h, show i - 8 < 8 by omega, show 8 + (i - 8) = i by omega]

/-- The bytes of a 16-bit field put together from two bytes are those bytes. -/
@[simp] theorem bytes16_le16 (b0 b1 : Byte) : bytes16 (le16 b0 b1) = [b0, b1] := by
  simp only [bytes16, le16, List.cons.injEq, and_true]
  refine ⟨?_, ?_⟩ <;>
  · apply BitVec.eq_of_getLsbD_eq
    intro i hi
    rw [BitVec.getLsbD_extractLsb', BitVec.getLsbD_append]
    simp [hi]

/-- The bytes of a 32-bit field put together from four bytes are those bytes. -/
@[simp] theorem bytes32_le32 (b0 b1 b2 b3 : Byte) : bytes32 (le32 b0 b1 b2 b3) = [b0, b1, b2, b3] := by
  simp only [bytes32, le32, List.cons.injEq, and_true]
  refine ⟨?_, ?_, ?_, ?_⟩ <;>
  · apply BitVec.eq_of_getLsbD_eq
    intro i hi
    simp only [BitVec.getLsbD_extractLsb', BitVec.getLsbD_append, hi]
    repeat rw [if_neg (by omega)]
    simp [show 16 + i - 8 - 8 = i by omega, show 24 + i - 8 - 8 - 8 = i by omega, hi]

end Sys2Proof.Machine
end

