-- ==== Sys2Proof/Laws/State.lean ====
section
/-! SUPPORT. One lemma for each field of each named update of the parser's registers, the decoder's context and the state:
what the update writes there, or that it leaves it. -/

namespace Sys2Proof.Machine

open Sys2Proof.Config

/-! ### Parser.prologue -/

@[simp] theorem Parser.prologue_st (p : Parser) : (p.prologue).st = p.st := rfl
@[simp] theorem Parser.prologue_wKind (p : Parser) : (p.prologue).wKind = p.wKind := rfl
@[simp] theorem Parser.prologue_wLen (p : Parser) : (p.prologue).wLen = p.wLen := rfl
@[simp] theorem Parser.prologue_wC (p : Parser) : (p.prologue).wC = p.wC := rfl
@[simp] theorem Parser.prologue_wA (p : Parser) : (p.prologue).wA = p.wA := rfl
@[simp] theorem Parser.prologue_wCI (p : Parser) : (p.prologue).wCI = p.wCI := rfl
@[simp] theorem Parser.prologue_wRem (p : Parser) : (p.prologue).wRem = p.wRem := rfl
@[simp] theorem Parser.prologue_wIdx (p : Parser) : (p.prologue).wIdx = p.wIdx := rfl
@[simp] theorem Parser.prologue_wSum (p : Parser) : (p.prologue).wSum = p.wSum := rfl
@[simp] theorem Parser.prologue_buf (p : Parser) : (p.prologue).buf = p.buf := rfl
@[simp] theorem Parser.prologue_fr (p : Parser) : (p.prologue).fr = p.fr := rfl
@[simp] theorem Parser.prologue_frameReady (p : Parser) : (p.prologue).frameReady = false := rfl
@[simp] theorem Parser.prologue_errEvent (p : Parser) : (p.prologue).errEvent = false := rfl
@[simp] theorem Parser.prologue_lastErr (p : Parser) : (p.prologue).lastErr = p.lastErr := rfl

/-! ### Parser.recordError -/

@[simp] theorem Parser.recordError_st (cause : FramingCause) (p : Parser) : (p.recordError cause).st = .expectStart := rfl
@[simp] theorem Parser.recordError_wKind (cause : FramingCause) (p : Parser) : (p.recordError cause).wKind = p.wKind := rfl
@[simp] theorem Parser.recordError_wLen (cause : FramingCause) (p : Parser) : (p.recordError cause).wLen = p.wLen := rfl
@[simp] theorem Parser.recordError_wC (cause : FramingCause) (p : Parser) : (p.recordError cause).wC = p.wC := rfl
@[simp] theorem Parser.recordError_wA (cause : FramingCause) (p : Parser) : (p.recordError cause).wA = p.wA := rfl
@[simp] theorem Parser.recordError_wCI (cause : FramingCause) (p : Parser) : (p.recordError cause).wCI = p.wCI := rfl
@[simp] theorem Parser.recordError_wRem (cause : FramingCause) (p : Parser) : (p.recordError cause).wRem = p.wRem := rfl
@[simp] theorem Parser.recordError_wIdx (cause : FramingCause) (p : Parser) : (p.recordError cause).wIdx = p.wIdx := rfl
@[simp] theorem Parser.recordError_wSum (cause : FramingCause) (p : Parser) : (p.recordError cause).wSum = p.wSum := rfl
@[simp] theorem Parser.recordError_buf (cause : FramingCause) (p : Parser) : (p.recordError cause).buf = p.buf := rfl
@[simp] theorem Parser.recordError_fr (cause : FramingCause) (p : Parser) : (p.recordError cause).fr = p.fr := rfl
@[simp] theorem Parser.recordError_frameReady (cause : FramingCause) (p : Parser) : (p.recordError cause).frameReady = p.frameReady := rfl
@[simp] theorem Parser.recordError_errEvent (cause : FramingCause) (p : Parser) : (p.recordError cause).errEvent = true := rfl
@[simp] theorem Parser.recordError_lastErr (cause : FramingCause) (p : Parser) : (p.recordError cause).lastErr = some cause := rfl

/-! ### Parser.completeFrame -/

@[simp] theorem Parser.completeFrame_st (f : Frame) (p : Parser) : (p.completeFrame f).st = .expectStart := rfl
@[simp] theorem Parser.completeFrame_wKind (f : Frame) (p : Parser) : (p.completeFrame f).wKind = p.wKind := rfl
@[simp] theorem Parser.completeFrame_wLen (f : Frame) (p : Parser) : (p.completeFrame f).wLen = p.wLen := rfl
@[simp] theorem Parser.completeFrame_wC (f : Frame) (p : Parser) : (p.completeFrame f).wC = p.wC := rfl
@[simp] theorem Parser.completeFrame_wA (f : Frame) (p : Parser) : (p.completeFrame f).wA = p.wA := rfl
@[simp] theorem Parser.completeFrame_wCI (f : Frame) (p : Parser) : (p.completeFrame f).wCI = p.wCI := rfl
@[simp] theorem Parser.completeFrame_wRem (f : Frame) (p : Parser) : (p.completeFrame f).wRem = p.wRem := rfl
@[simp] theorem Parser.completeFrame_wIdx (f : Frame) (p : Parser) : (p.completeFrame f).wIdx = p.wIdx := rfl
@[simp] theorem Parser.completeFrame_wSum (f : Frame) (p : Parser) : (p.completeFrame f).wSum = p.wSum := rfl
@[simp] theorem Parser.completeFrame_buf (f : Frame) (p : Parser) : (p.completeFrame f).buf = p.buf := rfl
@[simp] theorem Parser.completeFrame_fr (f : Frame) (p : Parser) : (p.completeFrame f).fr = f := rfl
@[simp] theorem Parser.completeFrame_frameReady (f : Frame) (p : Parser) : (p.completeFrame f).frameReady = true := rfl
@[simp] theorem Parser.completeFrame_errEvent (f : Frame) (p : Parser) : (p.completeFrame f).errEvent = p.errEvent := rfl
@[simp] theorem Parser.completeFrame_lastErr (f : Frame) (p : Parser) : (p.completeFrame f).lastErr = p.lastErr := rfl

/-! ### Parser.beginSingle -/

@[simp] theorem Parser.beginSingle_st (p : Parser) : (p.beginSingle).st = .expectStart := rfl
@[simp] theorem Parser.beginSingle_wKind (p : Parser) : (p.beginSingle).wKind = p.wKind := rfl
@[simp] theorem Parser.beginSingle_wLen (p : Parser) : (p.beginSingle).wLen = p.wLen := rfl
@[simp] theorem Parser.beginSingle_wC (p : Parser) : (p.beginSingle).wC = p.wC := rfl
@[simp] theorem Parser.beginSingle_wA (p : Parser) : (p.beginSingle).wA = p.wA := rfl
@[simp] theorem Parser.beginSingle_wCI (p : Parser) : (p.beginSingle).wCI = p.wCI := rfl
@[simp] theorem Parser.beginSingle_wRem (p : Parser) : (p.beginSingle).wRem = p.wRem := rfl
@[simp] theorem Parser.beginSingle_wIdx (p : Parser) : (p.beginSingle).wIdx = p.wIdx := rfl
@[simp] theorem Parser.beginSingle_wSum (p : Parser) : (p.beginSingle).wSum = p.wSum := rfl
@[simp] theorem Parser.beginSingle_buf (p : Parser) : (p.beginSingle).buf = p.buf := rfl
@[simp] theorem Parser.beginSingle_fr (p : Parser) : (p.beginSingle).fr = .single := rfl
@[simp] theorem Parser.beginSingle_frameReady (p : Parser) : (p.beginSingle).frameReady = true := rfl
@[simp] theorem Parser.beginSingle_errEvent (p : Parser) : (p.beginSingle).errEvent = p.errEvent := rfl
@[simp] theorem Parser.beginSingle_lastErr (p : Parser) : (p.beginSingle).lastErr = p.lastErr := rfl

/-! ### Parser.beginShort -/

@[simp] theorem Parser.beginShort_st (p : Parser) : (p.beginShort).st = .expectControl := rfl
@[simp] theorem Parser.beginShort_wKind (p : Parser) : (p.beginShort).wKind = .short := rfl
@[simp] theorem Parser.beginShort_wLen (p : Parser) : (p.beginShort).wLen = p.wLen := rfl
@[simp] theorem Parser.beginShort_wC (p : Parser) : (p.beginShort).wC = p.wC := rfl
@[simp] theorem Parser.beginShort_wA (p : Parser) : (p.beginShort).wA = p.wA := rfl
@[simp] theorem Parser.beginShort_wCI (p : Parser) : (p.beginShort).wCI = p.wCI := rfl
@[simp] theorem Parser.beginShort_wRem (p : Parser) : (p.beginShort).wRem = p.wRem := rfl
@[simp] theorem Parser.beginShort_wIdx (p : Parser) : (p.beginShort).wIdx = p.wIdx := rfl
@[simp] theorem Parser.beginShort_wSum (p : Parser) : (p.beginShort).wSum = p.wSum := rfl
@[simp] theorem Parser.beginShort_buf (p : Parser) : (p.beginShort).buf = p.buf := rfl
@[simp] theorem Parser.beginShort_fr (p : Parser) : (p.beginShort).fr = p.fr := rfl
@[simp] theorem Parser.beginShort_frameReady (p : Parser) : (p.beginShort).frameReady = p.frameReady := rfl
@[simp] theorem Parser.beginShort_errEvent (p : Parser) : (p.beginShort).errEvent = p.errEvent := rfl
@[simp] theorem Parser.beginShort_lastErr (p : Parser) : (p.beginShort).lastErr = p.lastErr := rfl

/-! ### Parser.beginLong -/

@[simp] theorem Parser.beginLong_st (p : Parser) : (p.beginLong).st = .expectLength := rfl
@[simp] theorem Parser.beginLong_wKind (p : Parser) : (p.beginLong).wKind = .long := rfl
@[simp] theorem Parser.beginLong_wLen (p : Parser) : (p.beginLong).wLen = p.wLen := rfl
@[simp] theorem Parser.beginLong_wC (p : Parser) : (p.beginLong).wC = p.wC := rfl
@[simp] theorem Parser.beginLong_wA (p : Parser) : (p.beginLong).wA = p.wA := rfl
@[simp] theorem Parser.beginLong_wCI (p : Parser) : (p.beginLong).wCI = p.wCI := rfl
@[simp] theorem Parser.beginLong_wRem (p : Parser) : (p.beginLong).wRem = p.wRem := rfl
@[simp] theorem Parser.beginLong_wIdx (p : Parser) : (p.beginLong).wIdx = p.wIdx := rfl
@[simp] theorem Parser.beginLong_wSum (p : Parser) : (p.beginLong).wSum = p.wSum := rfl
@[simp] theorem Parser.beginLong_buf (p : Parser) : (p.beginLong).buf = p.buf := rfl
@[simp] theorem Parser.beginLong_fr (p : Parser) : (p.beginLong).fr = p.fr := rfl
@[simp] theorem Parser.beginLong_frameReady (p : Parser) : (p.beginLong).frameReady = p.frameReady := rfl
@[simp] theorem Parser.beginLong_errEvent (p : Parser) : (p.beginLong).errEvent = p.errEvent := rfl
@[simp] theorem Parser.beginLong_lastErr (p : Parser) : (p.beginLong).lastErr = p.lastErr := rfl

/-! ### Parser.armControl -/

@[simp] theorem Parser.armControl_st (b : Byte) (p : Parser) : (p.armControl b).st = .expectAddress := rfl
@[simp] theorem Parser.armControl_wKind (b : Byte) (p : Parser) : (p.armControl b).wKind = p.wKind := rfl
@[simp] theorem Parser.armControl_wLen (b : Byte) (p : Parser) : (p.armControl b).wLen = p.wLen := rfl
@[simp] theorem Parser.armControl_wC (b : Byte) (p : Parser) : (p.armControl b).wC = b := rfl
@[simp] theorem Parser.armControl_wA (b : Byte) (p : Parser) : (p.armControl b).wA = p.wA := rfl
@[simp] theorem Parser.armControl_wCI (b : Byte) (p : Parser) : (p.armControl b).wCI = p.wCI := rfl
@[simp] theorem Parser.armControl_wRem (b : Byte) (p : Parser) : (p.armControl b).wRem = p.wRem := rfl
@[simp] theorem Parser.armControl_wIdx (b : Byte) (p : Parser) : (p.armControl b).wIdx = p.wIdx := rfl
@[simp] theorem Parser.armControl_wSum (b : Byte) (p : Parser) : (p.armControl b).wSum = b := rfl
@[simp] theorem Parser.armControl_buf (b : Byte) (p : Parser) : (p.armControl b).buf = p.buf := rfl
@[simp] theorem Parser.armControl_fr (b : Byte) (p : Parser) : (p.armControl b).fr = p.fr := rfl
@[simp] theorem Parser.armControl_frameReady (b : Byte) (p : Parser) : (p.armControl b).frameReady = p.frameReady := rfl
@[simp] theorem Parser.armControl_errEvent (b : Byte) (p : Parser) : (p.armControl b).errEvent = p.errEvent := rfl
@[simp] theorem Parser.armControl_lastErr (b : Byte) (p : Parser) : (p.armControl b).lastErr = p.lastErr := rfl

/-! ### Parser.armAddress -/

@[simp] theorem Parser.armAddress_st (b : Byte) (p : Parser) : (p.armAddress b).st = if p.wKind = .short then .expectChecksum else .expectControlInfo := rfl
@[simp] theorem Parser.armAddress_wKind (b : Byte) (p : Parser) : (p.armAddress b).wKind = p.wKind := rfl
@[simp] theorem Parser.armAddress_wLen (b : Byte) (p : Parser) : (p.armAddress b).wLen = p.wLen := rfl
@[simp] theorem Parser.armAddress_wC (b : Byte) (p : Parser) : (p.armAddress b).wC = p.wC := rfl
@[simp] theorem Parser.armAddress_wA (b : Byte) (p : Parser) : (p.armAddress b).wA = b := rfl
@[simp] theorem Parser.armAddress_wCI (b : Byte) (p : Parser) : (p.armAddress b).wCI = p.wCI := rfl
@[simp] theorem Parser.armAddress_wRem (b : Byte) (p : Parser) : (p.armAddress b).wRem = p.wRem := rfl
@[simp] theorem Parser.armAddress_wIdx (b : Byte) (p : Parser) : (p.armAddress b).wIdx = p.wIdx := rfl
@[simp] theorem Parser.armAddress_wSum (b : Byte) (p : Parser) : (p.armAddress b).wSum = p.wSum + b := rfl
@[simp] theorem Parser.armAddress_buf (b : Byte) (p : Parser) : (p.armAddress b).buf = p.buf := rfl
@[simp] theorem Parser.armAddress_fr (b : Byte) (p : Parser) : (p.armAddress b).fr = p.fr := rfl
@[simp] theorem Parser.armAddress_frameReady (b : Byte) (p : Parser) : (p.armAddress b).frameReady = p.frameReady := rfl
@[simp] theorem Parser.armAddress_errEvent (b : Byte) (p : Parser) : (p.armAddress b).errEvent = p.errEvent := rfl
@[simp] theorem Parser.armAddress_lastErr (b : Byte) (p : Parser) : (p.armAddress b).lastErr = p.lastErr := rfl

/-! ### Parser.armControlInfo -/

@[simp] theorem Parser.armControlInfo_st (b : Byte) (p : Parser) : (p.armControlInfo b).st = if p.wLen - 3 = 0 then .expectChecksum else .expectData := rfl
@[simp] theorem Parser.armControlInfo_wKind (b : Byte) (p : Parser) : (p.armControlInfo b).wKind = p.wKind := rfl
@[simp] theorem Parser.armControlInfo_wLen (b : Byte) (p : Parser) : (p.armControlInfo b).wLen = p.wLen := rfl
@[simp] theorem Parser.armControlInfo_wC (b : Byte) (p : Parser) : (p.armControlInfo b).wC = p.wC := rfl
@[simp] theorem Parser.armControlInfo_wA (b : Byte) (p : Parser) : (p.armControlInfo b).wA = p.wA := rfl
@[simp] theorem Parser.armControlInfo_wCI (b : Byte) (p : Parser) : (p.armControlInfo b).wCI = b := rfl
@[simp] theorem Parser.armControlInfo_wRem (b : Byte) (p : Parser) : (p.armControlInfo b).wRem = p.wLen - 3 := rfl
@[simp] theorem Parser.armControlInfo_wIdx (b : Byte) (p : Parser) : (p.armControlInfo b).wIdx = 0 := rfl
@[simp] theorem Parser.armControlInfo_wSum (b : Byte) (p : Parser) : (p.armControlInfo b).wSum = p.wSum + b := rfl
@[simp] theorem Parser.armControlInfo_buf (b : Byte) (p : Parser) : (p.armControlInfo b).buf = p.buf := rfl
@[simp] theorem Parser.armControlInfo_fr (b : Byte) (p : Parser) : (p.armControlInfo b).fr = p.fr := rfl
@[simp] theorem Parser.armControlInfo_frameReady (b : Byte) (p : Parser) : (p.armControlInfo b).frameReady = p.frameReady := rfl
@[simp] theorem Parser.armControlInfo_errEvent (b : Byte) (p : Parser) : (p.armControlInfo b).errEvent = p.errEvent := rfl
@[simp] theorem Parser.armControlInfo_lastErr (b : Byte) (p : Parser) : (p.armControlInfo b).lastErr = p.lastErr := rfl

/-! ### Parser.clear: the registers the spec gives (the others are free values) -/

@[simp] theorem Parser.clear_st (n : Nat) : (Parser.clear n).st = .expectStart := rfl
@[simp] theorem Parser.clear_frameReady (n : Nat) : (Parser.clear n).frameReady = false := rfl
@[simp] theorem Parser.clear_errEvent (n : Nat) : (Parser.clear n).errEvent = false := rfl
@[simp] theorem Parser.clear_lastErr (n : Nat) : (Parser.clear n).lastErr = none := rfl

/-! ### Drd.feed -/

@[simp] theorem Drd.feed_phase (x : Byte) (d : Drd) : (d.feed x).phase = d.phase := rfl
@[simp] theorem Drd.feed_pos (x : Byte) (d : Drd) : (d.feed x).pos = d.pos + 1 := rfl
@[simp] theorem Drd.feed_rest (x : Byte) (d : Drd) : (d.feed x).rest = d.rest := rfl
@[simp] theorem Drd.feed_start (x : Byte) (d : Drd) : (d.feed x).start = d.start := rfl
@[simp] theorem Drd.feed_taken (x : Byte) (d : Drd) : (d.feed x).taken = d.taken ++ [x] := rfl
@[simp] theorem Drd.feed_dif (x : Byte) (d : Drd) : (d.feed x).dif = d.dif := rfl
@[simp] theorem Drd.feed_dife (x : Byte) (d : Drd) : (d.feed x).dife = d.dife := rfl
@[simp] theorem Drd.feed_vif (x : Byte) (d : Drd) : (d.feed x).vif = d.vif := rfl
@[simp] theorem Drd.feed_text (x : Byte) (d : Drd) : (d.feed x).text = d.text := rfl
@[simp] theorem Drd.feed_vife (x : Byte) (d : Drd) : (d.feed x).vife = d.vife := rfl
@[simp] theorem Drd.feed_items (x : Byte) (d : Drd) : (d.feed x).items = d.items := rfl
@[simp] theorem Drd.feed_errors (x : Byte) (d : Drd) : (d.feed x).errors = d.errors := rfl

/-! ### Drd.skip -/

@[simp] theorem Drd.skip_phase (n : Nat) (d : Drd) : (d.skip n).phase = d.phase := rfl
@[simp] theorem Drd.skip_pos (n : Nat) (d : Drd) : (d.skip n).pos = d.pos + n := rfl
@[simp] theorem Drd.skip_rest (n : Nat) (d : Drd) : (d.skip n).rest = d.rest.drop n := rfl
@[simp] theorem Drd.skip_start (n : Nat) (d : Drd) : (d.skip n).start = d.start := rfl
@[simp] theorem Drd.skip_taken (n : Nat) (d : Drd) : (d.skip n).taken = d.taken ++ d.rest.take n := rfl
@[simp] theorem Drd.skip_dif (n : Nat) (d : Drd) : (d.skip n).dif = d.dif := rfl
@[simp] theorem Drd.skip_dife (n : Nat) (d : Drd) : (d.skip n).dife = d.dife := rfl
@[simp] theorem Drd.skip_vif (n : Nat) (d : Drd) : (d.skip n).vif = d.vif := rfl
@[simp] theorem Drd.skip_text (n : Nat) (d : Drd) : (d.skip n).text = d.text := rfl
@[simp] theorem Drd.skip_vife (n : Nat) (d : Drd) : (d.skip n).vife = d.vife := rfl
@[simp] theorem Drd.skip_items (n : Nat) (d : Drd) : (d.skip n).items = d.items := rfl
@[simp] theorem Drd.skip_errors (n : Nat) (d : Drd) : (d.skip n).errors = d.errors := rfl

/-! ### Drd.stop -/

@[simp] theorem Drd.stop_phase (cause : UnsupportedCause) (d : Drd) : (d.stop cause).phase = .done := rfl
@[simp] theorem Drd.stop_pos (cause : UnsupportedCause) (d : Drd) : (d.stop cause).pos = d.pos + d.rest.length := rfl
@[simp] theorem Drd.stop_rest (cause : UnsupportedCause) (d : Drd) : (d.stop cause).rest = [] := rfl
@[simp] theorem Drd.stop_start (cause : UnsupportedCause) (d : Drd) : (d.stop cause).start = d.start := rfl
@[simp] theorem Drd.stop_taken (cause : UnsupportedCause) (d : Drd) : (d.stop cause).taken = [] := rfl
@[simp] theorem Drd.stop_dif (cause : UnsupportedCause) (d : Drd) : (d.stop cause).dif = d.dif := rfl
@[simp] theorem Drd.stop_dife (cause : UnsupportedCause) (d : Drd) : (d.stop cause).dife = d.dife := rfl
@[simp] theorem Drd.stop_vif (cause : UnsupportedCause) (d : Drd) : (d.stop cause).vif = d.vif := rfl
@[simp] theorem Drd.stop_text (cause : UnsupportedCause) (d : Drd) : (d.stop cause).text = d.text := rfl
@[simp] theorem Drd.stop_vife (cause : UnsupportedCause) (d : Drd) : (d.stop cause).vife = d.vife := rfl
@[simp] theorem Drd.stop_items (cause : UnsupportedCause) (d : Drd) : (d.stop cause).items = d.items ++ [.opaqueBytes d.start cause (d.taken ++ d.rest)] := rfl
@[simp] theorem Drd.stop_errors (cause : UnsupportedCause) (d : Drd) : (d.stop cause).errors = d.errors ++ [(cause, d.start)] := rfl

/-! ### Drd.emit -/

@[simp] theorem Drd.emit_phase (it : Item) (d : Drd) : (d.emit it).phase = .dif := rfl
@[simp] theorem Drd.emit_pos (it : Item) (d : Drd) : (d.emit it).pos = d.pos := rfl
@[simp] theorem Drd.emit_rest (it : Item) (d : Drd) : (d.emit it).rest = d.rest := rfl
@[simp] theorem Drd.emit_start (it : Item) (d : Drd) : (d.emit it).start = d.pos := rfl
@[simp] theorem Drd.emit_taken (it : Item) (d : Drd) : (d.emit it).taken = [] := rfl
@[simp] theorem Drd.emit_dif (it : Item) (d : Drd) : (d.emit it).dif = 0 := rfl
@[simp] theorem Drd.emit_dife (it : Item) (d : Drd) : (d.emit it).dife = [] := rfl
@[simp] theorem Drd.emit_vif (it : Item) (d : Drd) : (d.emit it).vif = 0 := rfl
@[simp] theorem Drd.emit_text (it : Item) (d : Drd) : (d.emit it).text = [] := rfl
@[simp] theorem Drd.emit_vife (it : Item) (d : Drd) : (d.emit it).vife = [] := rfl
@[simp] theorem Drd.emit_items (it : Item) (d : Drd) : (d.emit it).items = d.items ++ [it] := rfl
@[simp] theorem Drd.emit_errors (it : Item) (d : Drd) : (d.emit it).errors = d.errors := rfl

/-! ### Drd.manufData -/

@[simp] theorem Drd.manufData_phase (x : Byte) (d : Drd) : (d.manufData x).phase = .done := rfl
@[simp] theorem Drd.manufData_pos (x : Byte) (d : Drd) : (d.manufData x).pos = d.pos + d.rest.length := rfl
@[simp] theorem Drd.manufData_rest (x : Byte) (d : Drd) : (d.manufData x).rest = [] := rfl
@[simp] theorem Drd.manufData_start (x : Byte) (d : Drd) : (d.manufData x).start = d.start := rfl
@[simp] theorem Drd.manufData_taken (x : Byte) (d : Drd) : (d.manufData x).taken = [] := rfl
@[simp] theorem Drd.manufData_dif (x : Byte) (d : Drd) : (d.manufData x).dif = d.dif := rfl
@[simp] theorem Drd.manufData_dife (x : Byte) (d : Drd) : (d.manufData x).dife = d.dife := rfl
@[simp] theorem Drd.manufData_vif (x : Byte) (d : Drd) : (d.manufData x).vif = d.vif := rfl
@[simp] theorem Drd.manufData_text (x : Byte) (d : Drd) : (d.manufData x).text = d.text := rfl
@[simp] theorem Drd.manufData_vife (x : Byte) (d : Drd) : (d.manufData x).vife = d.vife := rfl
@[simp] theorem Drd.manufData_items (x : Byte) (d : Drd) : (d.manufData x).items = d.items ++ [.manufData d.start x d.rest] := rfl
@[simp] theorem Drd.manufData_errors (x : Byte) (d : Drd) : (d.manufData x).errors = d.errors := rfl

/-! ### State.respond -/

@[simp] theorem State.respond_parser (r : Result) (s : State) : (s.respond r).parser = s.parser := rfl
@[simp] theorem State.respond_drd (r : Result) (s : State) : (s.respond r).drd = s.drd := rfl
@[simp] theorem State.respond_params (r : Result) (s : State) : (s.respond r).params = s.params := rfl
@[simp] theorem State.respond_draws (r : Result) (s : State) : (s.respond r).draws = s.draws := rfl
@[simp] theorem State.respond_pending (r : Result) (s : State) : (s.respond r).pending = s.pending := rfl
@[simp] theorem State.respond_results (r : Result) (s : State) : (s.respond r).results = s.results ++ [r] := rfl
@[simp] theorem State.respond_framesOut (r : Result) (s : State) : (s.respond r).framesOut = s.framesOut := rfl
@[simp] theorem State.respond_refusalMark (r : Result) (s : State) : (s.respond r).refusalMark = s.refusalMark := rfl

/-! ### State.issue -/

@[simp] theorem State.issue_parser (ps : List Packet) (s : State) : (s.issue ps).parser = s.parser := rfl
@[simp] theorem State.issue_drd (ps : List Packet) (s : State) : (s.issue ps).drd = s.drd := rfl
@[simp] theorem State.issue_params (ps : List Packet) (s : State) : (s.issue ps).params = s.params := rfl
@[simp] theorem State.issue_draws (ps : List Packet) (s : State) : (s.issue ps).draws = s.draws := rfl
@[simp] theorem State.issue_pending (ps : List Packet) (s : State) : (s.issue ps).pending = s.pending ++ ps := rfl
@[simp] theorem State.issue_results (ps : List Packet) (s : State) : (s.issue ps).results = s.results := rfl
@[simp] theorem State.issue_framesOut (ps : List Packet) (s : State) : (s.issue ps).framesOut = s.framesOut := rfl
@[simp] theorem State.issue_refusalMark (ps : List Packet) (s : State) : (s.issue ps).refusalMark = s.refusalMark := rfl

/-! ### State.issueFirst -/

@[simp] theorem State.issueFirst_parser (p : Packet) (s : State) : (s.issueFirst p).parser = s.parser := rfl
@[simp] theorem State.issueFirst_drd (p : Packet) (s : State) : (s.issueFirst p).drd = s.drd := rfl
@[simp] theorem State.issueFirst_params (p : Packet) (s : State) : (s.issueFirst p).params = s.params := rfl
@[simp] theorem State.issueFirst_draws (p : Packet) (s : State) : (s.issueFirst p).draws = s.draws := rfl
@[simp] theorem State.issueFirst_pending (p : Packet) (s : State) : (s.issueFirst p).pending = p :: s.pending := rfl
@[simp] theorem State.issueFirst_results (p : Packet) (s : State) : (s.issueFirst p).results = s.results := rfl
@[simp] theorem State.issueFirst_framesOut (p : Packet) (s : State) : (s.issueFirst p).framesOut = s.framesOut := rfl
@[simp] theorem State.issueFirst_refusalMark (p : Packet) (s : State) : (s.issueFirst p).refusalMark = s.refusalMark := rfl

/-! ### State.decodeBlock -/

@[simp] theorem State.decodeBlock_parser (data : List Byte) (off : Nat) (s : State) : (s.decodeBlock data off).parser = s.parser := rfl
@[simp] theorem State.decodeBlock_drd (data : List Byte) (off : Nat) (s : State) : (s.decodeBlock data off).drd = Drd.decodeFrom s.params data off := rfl
@[simp] theorem State.decodeBlock_params (data : List Byte) (off : Nat) (s : State) : (s.decodeBlock data off).params = s.params := rfl
@[simp] theorem State.decodeBlock_draws (data : List Byte) (off : Nat) (s : State) : (s.decodeBlock data off).draws = s.draws := rfl
@[simp] theorem State.decodeBlock_pending (data : List Byte) (off : Nat) (s : State) : (s.decodeBlock data off).pending = s.pending := rfl
@[simp] theorem State.decodeBlock_results (data : List Byte) (off : Nat) (s : State) : (s.decodeBlock data off).results = s.results := rfl
@[simp] theorem State.decodeBlock_framesOut (data : List Byte) (off : Nat) (s : State) : (s.decodeBlock data off).framesOut = s.framesOut := rfl
@[simp] theorem State.decodeBlock_refusalMark (data : List Byte) (off : Nat) (s : State) : (s.decodeBlock data off).refusalMark = s.refusalMark := rfl

/-! ### State.endDecode -/

@[simp] theorem State.endDecode_parser (s : State) : (s.endDecode).parser = s.parser := rfl
@[simp] theorem State.endDecode_drd (s : State) : (s.endDecode).drd = Drd.idle := rfl
@[simp] theorem State.endDecode_params (s : State) : (s.endDecode).params = s.params := rfl
@[simp] theorem State.endDecode_draws (s : State) : (s.endDecode).draws = s.draws := rfl
@[simp] theorem State.endDecode_pending (s : State) : (s.endDecode).pending = s.pending := rfl
@[simp] theorem State.endDecode_results (s : State) : (s.endDecode).results = s.results := rfl
@[simp] theorem State.endDecode_framesOut (s : State) : (s.endDecode).framesOut = s.framesOut := rfl
@[simp] theorem State.endDecode_refusalMark (s : State) : (s.endDecode).refusalMark = s.refusalMark := rfl

/-! ### The reset state (10_state.md R36) -/

@[simp] theorem Parser.reset_st : Parser.reset.st = .expectStart := rfl
@[simp] theorem Parser.reset_frameReady : Parser.reset.frameReady = false := rfl
@[simp] theorem Parser.reset_errEvent : Parser.reset.errEvent = false := rfl
@[simp] theorem Parser.reset_lastErr : Parser.reset.lastErr = none := rfl

end Sys2Proof.Machine
end

