-- ==== Sys2Proof/Laws/Parser.lean ====
section
/-! SUPPORT. The parser's operations: what one byte does in each state, that BUF reads back what was written, and that the
invariant of Safety.lean is kept and makes PUSH_BYTE and PUSH_BUF complete. -/

namespace Sys2Proof.Machine

open Sys2Proof.Config

/-! ### The checksum -/

theorem foldl_add_start (bs : List Byte) (u : Byte) : bs.foldl (fun s b => s + b) u = u + byteSum bs := by
  unfold byteSum
  induction bs generalizing u with
  | nil => simp
  | cons b bs ih => rw [List.foldl_cons, ih, List.foldl_cons, ih (0 + b)]; simp [BitVec.add_assoc]

@[simp] theorem byteSum_nil : byteSum [] = 0 := rfl

@[simp] theorem byteSum_cons (b : Byte) (bs : List Byte) : byteSum (b :: bs) = b + byteSum bs := by
  show bs.foldl (fun s b => s + b) (0 + b) = _
  rw [foldl_add_start]; simp

@[simp] theorem byteSum_append (bs cs : List Byte) : byteSum (bs ++ cs) = byteSum bs + byteSum cs := by
  induction bs with
  | nil => simp
  | cons b bs ih => simp [ih, BitVec.add_assoc]

/-! ### BUF -/

/-- A byte written at index `i` extends the bytes below `i` by one. -/
theorem buf_take_set (buf : Vector Byte 252) (i : Nat) (b : Byte) (h : i < 252) :
    (buf.set i b h).toList.take (i + 1) = buf.toList.take i ++ [b] := by
  have hl : buf.toList.length = 252 := by simp
  rw [Vector.toList_set, List.take_succ_eq_append_getElem (by simp [h])]
  simp [List.take_set_of_le]

/-- `n` data bytes of BUF are `n` bytes. -/
theorem buf_take_length (buf : Vector Byte 252) (n : Nat) (h : n ≤ 252) : (buf.toList.take n).length = n := by
  simp [h]

/-! ### Bytes as numbers -/

theorem toNat_add_one (x : Byte) (h : x.toNat < 255) : (x + 1).toNat = x.toNat + 1 := by
  simp; omega

theorem toNat_sub_one (x : Byte) (h : 1 ≤ x.toNat) : (x - 1).toNat = x.toNat - 1 := by
  have := x.isLt; simp [BitVec.toNat_sub]; omega

theorem toNat_sub_three (x : Byte) (h : 3 ≤ x.toNat) : (x - 3).toNat = x.toNat - 3 := by
  have := x.isLt; simp [BitVec.toNat_sub]; omega

theorem eq_zero_iff (x : Byte) : x = 0 ↔ x.toNat = 0 := by rw [← BitVec.toNat_inj]; rfl

theorem eq_three_iff (x : Byte) : x = 3 ↔ x.toNat = 3 := by rw [← BitVec.toNat_inj]; rfl

/-! ### PUSH_BYTE in each state (41_parser.md R119) -/

variable (cfg : Params) (b : Byte) (p : Parser)

theorem Parser.pushByte_start (h : p.st = .expectStart) : p.pushByte cfg b = .ok (p.prologue.armStart b) := by
  simp [Parser.pushByte, Parser.arm, h]

theorem Parser.pushByte_length (h : p.st = .expectLength) : p.pushByte cfg b = .ok (p.prologue.armLength b) := by
  simp [Parser.pushByte, Parser.arm, h]

theorem Parser.pushByte_lengthRepeat (h : p.st = .expectLengthRepeat) :
    p.pushByte cfg b = .ok (p.prologue.armLengthRepeat cfg b) := by
  simp [Parser.pushByte, Parser.arm, h]

theorem Parser.pushByte_start2 (h : p.st = .expectStart2) : p.pushByte cfg b = .ok (p.prologue.armStart2 b) := by
  simp [Parser.pushByte, Parser.arm, h]

theorem Parser.pushByte_control (h : p.st = .expectControl) : p.pushByte cfg b = .ok (p.prologue.armControl b) := by
  simp [Parser.pushByte, Parser.arm, h]

theorem Parser.pushByte_address (h : p.st = .expectAddress) : p.pushByte cfg b = .ok (p.prologue.armAddress b) := by
  simp [Parser.pushByte, Parser.arm, h]

theorem Parser.pushByte_controlInfo (h : p.st = .expectControlInfo) :
    p.pushByte cfg b = .ok (p.prologue.armControlInfo b) := by
  simp [Parser.pushByte, Parser.arm, h]

theorem Parser.pushByte_data (h : p.st = .expectData) : p.pushByte cfg b = p.prologue.armData b := by
  simp [Parser.pushByte, Parser.arm, h]

theorem Parser.pushByte_checksum (h : p.st = .expectChecksum) :
    p.pushByte cfg b = .ok (p.prologue.armChecksum b) := by
  simp [Parser.pushByte, Parser.arm, h]

theorem Parser.pushByte_stop (h : p.st = .expectStop) : p.pushByte cfg b = .ok (p.prologue.armStop b) := by
  simp [Parser.pushByte, Parser.arm, h]

/-- A data byte where W_IDX is an index of BUF. -/
theorem Parser.armData_ok (h : p.wIdx.toNat < 252) :
    p.armData b =
      .ok
        { p with
          buf := p.buf.set p.wIdx.toNat b h, wIdx := p.wIdx + 1, wSum := p.wSum + b, wRem := p.wRem - 1,
          st := if p.wRem - 1 = 0 then .expectChecksum else .expectData } := by
  simp [Parser.armData, h]

/-- The only stop of a PUSH_BYTE: a data byte for an index that BUF does not have. -/
theorem Parser.pushByte_error {e : Fault} (h : p.pushByte cfg b = .error e) :
    p.st = .expectData ∧ 252 ≤ p.wIdx.toNat := by
  cases hs : p.st
  case expectData =>
    refine ⟨rfl, ?_⟩
    rw [p.pushByte_data cfg b hs] at h
    by_contra hc
    rw [Parser.armData_ok _ _ (by simp; omega)] at h
    cases h
  all_goals simp [Parser.pushByte, Parser.arm, hs] at h

/-! ### The invariant (10_state.md R31, R32) -/

/-- In EXPECT_DATA the invariant makes W_IDX an index of BUF (20_memory.md R51). -/
theorem Parser.Inv.idx_lt {p : Parser} (hi : p.Inv) (hs : p.st = .expectData) : p.wIdx.toNat < 252 := by
  obtain ⟨-, hf, -⟩ := hi
  simp only [Parser.FrameInv, hs] at hf
  have := p.wLen.isLt
  omega

/-- PUSH_BYTE completes from every state that meets the invariant. -/
theorem Parser.Inv.pushByte_ok {p : Parser} (hi : p.Inv) : ∃ q, p.pushByte cfg b = .ok q := by
  cases h : p.pushByte cfg b with
  | ok q => exact ⟨q, rfl⟩
  | error e =>
    obtain ⟨hs, hx⟩ := p.pushByte_error cfg b h
    have := hi.idx_lt hs
    omega

/-- A recorded error leaves the invariant. -/
theorem Parser.inv_recordError (cause : FramingCause) (h : p.frameReady = false) :
    (p.recordError cause).Inv := by
  simp [Parser.Inv, Parser.ReadyOnlyAtStart, Parser.FrameInv, Parser.RetainedLegal, Parser.ErrorFlags, h]

/-- A completed legal frame leaves the invariant. -/
theorem Parser.inv_completeFrame (f : Frame) (hf : Frame.Legal f) (h : p.errEvent = false) :
    (p.completeFrame f).Inv := by
  simp [Parser.Inv, Parser.ReadyOnlyAtStart, Parser.FrameInv, Parser.RetainedLegal, Parser.ErrorFlags, h, hf]

/-- Between the ends of a frame the flags are clear and only the frame's own condition is left. -/
theorem Parser.inv_of_frameInv (hf : p.FrameInv) (hr : p.frameReady = false) (he : p.errEvent = false) : p.Inv := by
  refine ⟨?_, hf, ?_, ?_⟩ <;> simp [Parser.ReadyOnlyAtStart, Parser.RetainedLegal, Parser.ErrorFlags, hr, he]

/-- The frame a stop byte completes is a legal one. -/
theorem Parser.pendingFrame_legal (hf : p.FrameInv) (hs : p.st = .expectStop) : Frame.Legal p.pendingFrame := by
  simp only [Parser.FrameInv, hs] at hf
  unfold Parser.pendingFrame
  split
  · trivial
  · split
    · trivial
    · rename_i hk h3
      have := p.wLen.isLt
      rw [eq_three_iff] at h3
      rcases hf with ⟨h, -⟩ | ⟨-, hl, -⟩
      · exact absurd h hk
      · simp [Frame.Legal, Parser.frameData, maxData]; omega

/-- PUSH_BYTE keeps the invariant. -/
theorem Parser.Inv.pushByte {p q : Parser} (hi : p.Inv) (h : p.pushByte cfg b = .ok q) : q.Inv := by
  have hf := hi.2.1
  cases hs : p.st with
  | expectStart =>
    rw [p.pushByte_start cfg b hs] at h
    cases h
    unfold Parser.armStart
    split
    · exact Parser.inv_completeFrame _ _ trivial rfl
    · split
      · exact Parser.inv_of_frameInv _ (by simp [Parser.FrameInv]) rfl rfl
      · split
        · exact Parser.inv_of_frameInv _ (by simp [Parser.FrameInv]) rfl rfl
        · exact Parser.inv_recordError _ _ rfl
  | expectLength =>
    rw [p.pushByte_length cfg b hs] at h
    cases h
    simp only [Parser.FrameInv, hs] at hf
    unfold Parser.armLength
    split
    · exact Parser.inv_recordError _ _ rfl
    · exact Parser.inv_of_frameInv _ (by simp [Parser.FrameInv, hf]; omega) rfl rfl
  | expectLengthRepeat =>
    rw [p.pushByte_lengthRepeat cfg b hs] at h
    cases h
    simp only [Parser.FrameInv, hs] at hf
    unfold Parser.armLengthRepeat
    split
    · exact Parser.inv_recordError _ _ rfl
    · split <;> exact Parser.inv_of_frameInv _ (by simp [Parser.FrameInv, hf]) rfl rfl
  | expectStart2 =>
    rw [p.pushByte_start2 cfg b hs] at h
    cases h
    simp only [Parser.FrameInv, hs] at hf
    unfold Parser.armStart2
    split
    · exact Parser.inv_recordError _ _ rfl
    · exact Parser.inv_of_frameInv _ (by simp [Parser.FrameInv, hf]) rfl rfl
  | expectControl =>
    rw [p.pushByte_control cfg b hs] at h
    cases h
    simp only [Parser.FrameInv, hs] at hf
    exact Parser.inv_of_frameInv _ (by simpa [Parser.FrameInv] using hf) rfl rfl
  | expectAddress =>
    rw [p.pushByte_address cfg b hs] at h
    cases h
    simp only [Parser.FrameInv, hs] at hf
    cases hk : p.wKind <;>
      exact Parser.inv_of_frameInv _ (by simp [Parser.FrameInv, hf, hk]; try exact hf.1 hk) rfl rfl
  | expectControlInfo =>
    rw [p.pushByte_controlInfo cfg b hs] at h
    cases h
    simp only [Parser.FrameInv, hs] at hf
    obtain ⟨hk, h3, hsum⟩ := hf
    have e := toNat_sub_three p.wLen h3
    by_cases hz : p.wLen - 3 = 0
    · have hn := (eq_zero_iff _).mp hz
      refine Parser.inv_of_frameInv _ ?_ rfl rfl
      have hst : (p.prologue.armControlInfo b).st = .expectChecksum := by
        rw [Parser.armControlInfo_st, Parser.prologue_wLen, if_pos hz]
      simp only [Parser.FrameInv, hst]
      refine Or.inr ⟨hk, h3, ?_, ?_⟩
      · show 0 = p.wLen.toNat - 3
        omega
      · simp [Parser.dataSoFar, hsum]
    · have hn : (p.wLen - 3).toNat ≠ 0 := fun hx => hz ((eq_zero_iff _).mpr hx)
      rw [e] at hn
      refine Parser.inv_of_frameInv _ ?_ rfl rfl
      have hst : (p.prologue.armControlInfo b).st = .expectData := by
        rw [Parser.armControlInfo_st, Parser.prologue_wLen, if_neg hz]
      simp only [Parser.FrameInv, hst]
      refine ⟨hk, ?_, ?_, ?_, by simp [Parser.dataSoFar, hsum]⟩
      · show 4 ≤ p.wLen.toNat
        omega
      · show 1 ≤ (p.wLen - 3).toNat
        rw [e]
        omega
      · show 0 + (p.wLen - 3).toNat = p.wLen.toNat - 3
        rw [e, Nat.zero_add]
  | expectData =>
    have hlt := hi.idx_lt hs
    rw [p.pushByte_data cfg b hs, Parser.armData_ok _ _ (by simpa using hlt)] at h
    cases h
    simp only [Parser.FrameInv, hs] at hf
    obtain ⟨hk, h4, h1, hidx, hsum⟩ := hf
    have hl := p.wLen.isLt
    have e1 := toNat_add_one p.wIdx (by omega)
    have e2 := toNat_sub_one p.wRem h1
    by_cases hz : p.wRem - 1 = 0
    · have hn := (eq_zero_iff _).mp hz
      refine Parser.inv_of_frameInv _ ?_ rfl rfl
      simp only [Parser.FrameInv, Parser.dataSoFar, Parser.prologue_wRem, hz, if_true] at hsum ⊢
      refine Or.inr ⟨hk, by simp; omega, by simp only [Parser.prologue_wIdx, Parser.prologue_wLen]; omega, ?_⟩
      simp only [Parser.prologue_wIdx, Parser.prologue_wSum, Parser.prologue_wC, Parser.prologue_wA,
        Parser.prologue_wCI, Parser.prologue_buf, e1, buf_take_set, hsum, byteSum_append, byteSum_cons, byteSum_nil]
      simp [BitVec.add_assoc]
    · have hn : (p.wRem - 1).toNat ≠ 0 := fun hx => hz ((eq_zero_iff _).mpr hx)
      rw [e2] at hn
      refine Parser.inv_of_frameInv _ ?_ rfl rfl
      simp only [Parser.FrameInv, Parser.dataSoFar, Parser.prologue_wRem, hz, if_false] at hsum ⊢
      refine ⟨hk, h4, by rw [e2]; omega, ?_, ?_⟩
      · simp only [Parser.prologue_wIdx, Parser.prologue_wLen]
        omega
      simp only [Parser.prologue_wIdx, Parser.prologue_wSum, Parser.prologue_wC, Parser.prologue_wA,
        Parser.prologue_wCI, Parser.prologue_buf, e1, buf_take_set, hsum, byteSum_append, byteSum_cons, byteSum_nil]
      simp [BitVec.add_assoc]
  | expectChecksum =>
    rw [p.pushByte_checksum cfg b hs] at h
    cases h
    simp only [Parser.FrameInv, hs] at hf
    unfold Parser.armChecksum
    split
    · exact Parser.inv_recordError _ _ rfl
    · exact Parser.inv_of_frameInv _ (by simpa [Parser.FrameInv, Parser.dataSoFar] using hf) rfl rfl
  | expectStop =>
    rw [p.pushByte_stop cfg b hs] at h
    cases h
    unfold Parser.armStop
    split
    · exact Parser.inv_recordError _ _ rfl
    · refine Parser.inv_completeFrame _ _ (Parser.pendingFrame_legal _ ?_ hs) rfl
      simpa [Parser.FrameInv, Parser.dataSoFar] using hf

/-- PUSH_BUF keeps the invariant and completes. -/
theorem Parser.Inv.pushBuf {p : Parser} (hi : p.Inv) (bs : List Byte) (k errors : Nat) :
    ∃ k' errors' q, p.pushBuf cfg bs k errors = .ok (k', errors', q) ∧ q.Inv := by
  induction bs generalizing p k errors with
  | nil => exact ⟨k, errors, p, rfl, hi⟩
  | cons b bs ih =>
    obtain ⟨q, hq⟩ := hi.pushByte_ok cfg b
    have hqi := hi.pushByte cfg b hq
    simp only [Parser.pushBuf, hq]
    split
    · exact ⟨_, _, q, rfl, hqi⟩
    · exact ih hqi _ _

/-- RESET leaves the invariant, whatever the free values are. -/
theorem Parser.clear_inv (n : Nat) : (Parser.clear n).Inv := by
  simp [Parser.Inv, Parser.ReadyOnlyAtStart, Parser.FrameInv, Parser.RetainedLegal, Parser.ErrorFlags]

end Sys2Proof.Machine
end

