-- ==== Sys2Proof/Laws/PerInstr.lean ====
section
/-! SUPPORT. The per-instruction family RowWord: the row byte of every well-formed instruction matches one of its rows of
spec/opcode_table.json. -/

namespace Sys2Proof.Laws.RowWord

/-- The row byte of a well-formed instruction has the match value under the mask of one of the instruction's rows. -/
def Statement (i : Instr) : Prop := i.WellFormed → i.matchesRow = true

end Sys2Proof.Laws.RowWord

namespace Sys2Proof.Laws

theorem RowWord.pushByte (b : Byte) : RowWord.Statement (.pushByte b) := by
  intro _
  simp [Instr.matchesRow, Instr.rows, encode]

theorem RowWord.pushBuf (bs : List Byte) : RowWord.Statement (.pushBuf bs) := by
  intro _
  simp [Instr.matchesRow, Instr.rows, encode]

theorem RowWord.getFrame : RowWord.Statement .getFrame := by
  intro _
  simp [Instr.matchesRow, Instr.rows, encode]

theorem RowWord.getState : RowWord.Statement .getState := by
  intro _
  simp [Instr.matchesRow, Instr.rows, encode]

theorem RowWord.reset : RowWord.Statement .reset := by
  intro _
  simp [Instr.matchesRow, Instr.rows, encode]

theorem RowWord.checksum (bs : List Byte) : RowWord.Statement (.checksum bs) := by
  intro _
  simp [Instr.matchesRow, Instr.rows, encode]

theorem RowWord.validateMarkers (start stop lenA lenB : Byte) : RowWord.Statement (.validateMarkers start stop lenA lenB) := by
  intro _
  simp [Instr.matchesRow, Instr.rows, encode]

theorem RowWord.encodeFrame (operand : List Byte) : RowWord.Statement (.encodeFrame operand) := by
  intro _
  simp [Instr.matchesRow, Instr.rows, encode]

theorem RowWord.encodePayload (r : UserDataResponse) : RowWord.Statement (.encodePayload r) := by
  intro _
  simp [Instr.matchesRow, Instr.rows, encode]

theorem RowWord.decodePayload (ci : Byte) (data : List Byte) : RowWord.Statement (.decodePayload ci data) := by
  intro _
  simp [Instr.matchesRow, Instr.rows, encode]

theorem RowWord.decodeRecords (data : List Byte) : RowWord.Statement (.decodeRecords data) := by
  intro _
  simp [Instr.matchesRow, Instr.rows, encode]

theorem RowWord.illegalCommand (code : Byte) : RowWord.Statement (.illegalCommand code) := by
  unfold RowWord.Statement
  revert code
  decide

theorem RowWord.armExpectStart (b : Byte) : RowWord.Statement (.armExpectStart b) := by
  intro _
  simp [Instr.matchesRow, Instr.rows, encode]

theorem RowWord.armExpectLength (b : Byte) : RowWord.Statement (.armExpectLength b) := by
  intro _
  simp [Instr.matchesRow, Instr.rows, encode]

theorem RowWord.armExpectLengthRepeat (b : Byte) : RowWord.Statement (.armExpectLengthRepeat b) := by
  intro _
  simp [Instr.matchesRow, Instr.rows, encode]

theorem RowWord.armExpectStart2 (b : Byte) : RowWord.Statement (.armExpectStart2 b) := by
  intro _
  simp [Instr.matchesRow, Instr.rows, encode]

theorem RowWord.armExpectControl (b : Byte) : RowWord.Statement (.armExpectControl b) := by
  intro _
  simp [Instr.matchesRow, Instr.rows, encode]

theorem RowWord.armExpectAddress (b : Byte) : RowWord.Statement (.armExpectAddress b) := by
  intro _
  simp [Instr.matchesRow, Instr.rows, encode]

theorem RowWord.armExpectControlInfo (b : Byte) : RowWord.Statement (.armExpectControlInfo b) := by
  intro _
  simp [Instr.matchesRow, Instr.rows, encode]

theorem RowWord.armExpectData (b : Byte) : RowWord.Statement (.armExpectData b) := by
  intro _
  simp [Instr.matchesRow, Instr.rows, encode]

theorem RowWord.armExpectChecksum (b : Byte) : RowWord.Statement (.armExpectChecksum b) := by
  intro _
  simp [Instr.matchesRow, Instr.rows, encode]

theorem RowWord.armExpectStop (b : Byte) : RowWord.Statement (.armExpectStop b) := by
  intro _
  simp [Instr.matchesRow, Instr.rows, encode]

theorem RowWord.frameSingle : RowWord.Statement .frameSingle := by
  intro _
  simp [Instr.matchesRow, Instr.rows, encode]

theorem RowWord.frameShort : RowWord.Statement .frameShort := by
  intro _
  simp [Instr.matchesRow, Instr.rows, encode]

theorem RowWord.frameControlOrLong : RowWord.Statement .frameControlOrLong := by
  intro _
  simp [Instr.matchesRow, Instr.rows, encode]

theorem RowWord.difManufData : RowWord.Statement .difManufData := by
  intro _
  simp [Instr.matchesRow, Instr.rows, encode]

theorem RowWord.difManufDataMore : RowWord.Statement .difManufDataMore := by
  intro _
  simp [Instr.matchesRow, Instr.rows, encode]

theorem RowWord.difIdleFill : RowWord.Statement .difIdleFill := by
  intro _
  simp [Instr.matchesRow, Instr.rows, encode]

theorem RowWord.difGlobalReadout : RowWord.Statement .difGlobalReadout := by
  intro _
  simp [Instr.matchesRow, Instr.rows, encode]

theorem RowWord.difReserved (high : BitVec 4) : RowWord.Statement (.difReserved high) := by
  unfold RowWord.Statement
  revert high
  decide

theorem RowWord.difNoData (h : DifHead) : RowWord.Statement (.difNoData h) := by
  obtain ⟨ext, lsb, function⟩ := h
  unfold RowWord.Statement
  revert ext lsb function
  decide

theorem RowWord.difInt8 (h : DifHead) : RowWord.Statement (.difInt8 h) := by
  obtain ⟨ext, lsb, function⟩ := h
  unfold RowWord.Statement
  revert ext lsb function
  decide

theorem RowWord.difInt16 (h : DifHead) : RowWord.Statement (.difInt16 h) := by
  obtain ⟨ext, lsb, function⟩ := h
  unfold RowWord.Statement
  revert ext lsb function
  decide

theorem RowWord.difInt24 (h : DifHead) : RowWord.Statement (.difInt24 h) := by
  obtain ⟨ext, lsb, function⟩ := h
  unfold RowWord.Statement
  revert ext lsb function
  decide

theorem RowWord.difInt32 (h : DifHead) : RowWord.Statement (.difInt32 h) := by
  obtain ⟨ext, lsb, function⟩ := h
  unfold RowWord.Statement
  revert ext lsb function
  decide

theorem RowWord.difReal32 (h : DifHead) : RowWord.Statement (.difReal32 h) := by
  obtain ⟨ext, lsb, function⟩ := h
  unfold RowWord.Statement
  revert ext lsb function
  decide

theorem RowWord.difInt48 (h : DifHead) : RowWord.Statement (.difInt48 h) := by
  obtain ⟨ext, lsb, function⟩ := h
  unfold RowWord.Statement
  revert ext lsb function
  decide

theorem RowWord.difInt64 (h : DifHead) : RowWord.Statement (.difInt64 h) := by
  obtain ⟨ext, lsb, function⟩ := h
  unfold RowWord.Statement
  revert ext lsb function
  decide

theorem RowWord.difSelection (h : DifHead) : RowWord.Statement (.difSelection h) := by
  obtain ⟨ext, lsb, function⟩ := h
  unfold RowWord.Statement
  revert ext lsb function
  decide

theorem RowWord.difBcd2 (h : DifHead) : RowWord.Statement (.difBcd2 h) := by
  obtain ⟨ext, lsb, function⟩ := h
  unfold RowWord.Statement
  revert ext lsb function
  decide

theorem RowWord.difBcd4 (h : DifHead) : RowWord.Statement (.difBcd4 h) := by
  obtain ⟨ext, lsb, function⟩ := h
  unfold RowWord.Statement
  revert ext lsb function
  decide

theorem RowWord.difBcd6 (h : DifHead) : RowWord.Statement (.difBcd6 h) := by
  obtain ⟨ext, lsb, function⟩ := h
  unfold RowWord.Statement
  revert ext lsb function
  decide

theorem RowWord.difBcd8 (h : DifHead) : RowWord.Statement (.difBcd8 h) := by
  obtain ⟨ext, lsb, function⟩ := h
  unfold RowWord.Statement
  revert ext lsb function
  decide

theorem RowWord.difLvar (h : DifHead) : RowWord.Statement (.difLvar h) := by
  obtain ⟨ext, lsb, function⟩ := h
  unfold RowWord.Statement
  revert ext lsb function
  decide

theorem RowWord.difBcd12 (h : DifHead) : RowWord.Statement (.difBcd12 h) := by
  obtain ⟨ext, lsb, function⟩ := h
  unfold RowWord.Statement
  revert ext lsb function
  decide

theorem RowWord.dife (ext subunit : Bool) (tariff : BitVec 2) (storage : BitVec 4) : RowWord.Statement (.dife ext subunit tariff storage) := by
  unfold RowWord.Statement
  revert ext subunit tariff storage
  decide

theorem RowWord.vifUnsupported6F (ext : Bool) : RowWord.Statement (.vifUnsupported6F ext) := by
  unfold RowWord.Statement
  revert ext
  decide

theorem RowWord.vifExtTableFB (ext : Bool) : RowWord.Statement (.vifExtTableFB ext) := by
  unfold RowWord.Statement
  revert ext
  decide

theorem RowWord.vifPlainText (ext : Bool) : RowWord.Statement (.vifPlainText ext) := by
  unfold RowWord.Statement
  revert ext
  decide

theorem RowWord.vifExtTableFD (ext : Bool) : RowWord.Statement (.vifExtTableFD ext) := by
  unfold RowWord.Statement
  revert ext
  decide

theorem RowWord.vifAny (ext : Bool) : RowWord.Statement (.vifAny ext) := by
  unfold RowWord.Statement
  revert ext
  decide

theorem RowWord.vifManufacturer (ext : Bool) : RowWord.Statement (.vifManufacturer ext) := by
  unfold RowWord.Statement
  revert ext
  decide

theorem RowWord.vifPrimary (ext : Bool) (value : BitVec 7) : RowWord.Statement (.vifPrimary ext value) := by
  unfold RowWord.Statement
  revert ext value
  decide

theorem RowWord.vife (ext : Bool) (value : BitVec 7) : RowWord.Statement (.vife ext value) := by
  unfold RowWord.Statement
  revert ext value
  decide

theorem RowWord.lvarText (length : Byte) : RowWord.Statement (.lvarText length) := by
  unfold RowWord.Statement
  revert length
  decide

theorem RowWord.lvarBcdPos (count : BitVec 4) : RowWord.Statement (.lvarBcdPos count) := by
  unfold RowWord.Statement
  revert count
  decide

theorem RowWord.lvarReserved (lv : Byte) : RowWord.Statement (.lvarReserved lv) := by
  unfold RowWord.Statement
  revert lv
  decide

theorem RowWord.lvarBcdNeg (count : BitVec 4) : RowWord.Statement (.lvarBcdNeg count) := by
  unfold RowWord.Statement
  revert count
  decide

theorem RowWord.lvarBinary (count : BitVec 4) : RowWord.Statement (.lvarBinary count) := by
  unfold RowWord.Statement
  revert count
  decide

theorem RowWord.cSndNke : RowWord.Statement .cSndNke := by
  intro _
  simp [Instr.matchesRow, Instr.rows, encode]

theorem RowWord.cSndUd (fcb : Bool) : RowWord.Statement (.cSndUd fcb) := by
  unfold RowWord.Statement
  revert fcb
  decide

theorem RowWord.cReqUd2 (fcb : Bool) : RowWord.Statement (.cReqUd2 fcb) := by
  unfold RowWord.Statement
  revert fcb
  decide

theorem RowWord.cReqUd1 (fcb : Bool) : RowWord.Statement (.cReqUd1 fcb) := by
  unfold RowWord.Statement
  revert fcb
  decide

theorem RowWord.cRspUd (acd dfc : Bool) : RowWord.Statement (.cRspUd acd dfc) := by
  unfold RowWord.Statement
  revert acd dfc
  decide

end Sys2Proof.Laws
end

