-- ==== Sys2Proof/Laws/Records.lean ====
section
/-! SUPPORT. The record decoder's operations: what each leaves in the working context, and that none loses a byte: the bytes
of the items so far, those of the item being read and those still to be read are together the bytes of the block. -/

namespace Sys2Proof.Machine

open Sys2Proof.Config

variable (cfg : Params) (d : Drd)

/-! ### Items as bytes (42_encoder.md R179) -/

@[simp] theorem itemsBytes_nil : itemsBytes cfg [] = [] := rfl

@[simp] theorem itemsBytes_append (xs ys : List Item) :
    itemsBytes cfg (xs ++ ys) = itemsBytes cfg xs ++ itemsBytes cfg ys := by
  simp [itemsBytes]

@[simp] theorem itemsBytes_single (it : Item) : itemsBytes cfg [it] = itemBytes cfg it := by simp [itemsBytes]

/-- The header's raw fields are written back as the bytes they were read from (R181, 43_records.md R201). -/
theorem headerBytes_parseHeader (kind : HeaderKind) (hb : List Byte) (h : hb.length = kind.length) :
    headerBytes (parseHeader kind hb) = hb := by
  cases kind with
  | h0 => exact (List.length_eq_zero_iff.mp h).symm
  | h4 =>
    match hb, h with
    | [acc, st, s0, s1], _ => simp [parseHeader, headerBytes]
  | h12 =>
    match hb, h with
    | [i0, i1, i2, i3, m0, m1, ver, med, acc, st, s0, s1], _ => simp [parseHeader, headerBytes]

/-- The bytes of an item with the block's bytes before and behind it. -/
def Drd.allBytes (d : Drd) : List Byte := itemsBytes cfg d.items ++ d.taken ++ d.rest

@[simp] theorem Drd.opening_allBytes (data : List Byte) (s : Nat) :
    (Drd.opening data s).allBytes cfg = data.drop s := by
  simp [Drd.allBytes, Drd.opening, Drd.idle]

theorem Drd.stop_allBytes (cause : UnsupportedCause) : (d.stop cause).allBytes cfg = d.allBytes cfg := by
  simp [Drd.allBytes, itemBytes]

theorem Drd.skip_allBytes (n : Nat) : (d.skip n).allBytes cfg = d.allBytes cfg := by simp [Drd.allBytes]

/-- Reading the byte at the front of what is left. -/
theorem Drd.feed_allBytes (x : Byte) (more : List Byte) (h : d.rest = x :: more) :
    ({ d with rest := more }.feed x).allBytes cfg = d.allBytes cfg := by
  simp [Drd.allBytes, h]

/-- A complete item keeps every byte where its own bytes are those read for it. -/
theorem Drd.emit_allBytes (it : Item) (h : itemBytes cfg it = d.taken) :
    (d.emit it).allBytes cfg = d.allBytes cfg := by
  simp [Drd.allBytes, h, Drd.emit, Drd.idle]

/-- MANUF_DATA covers its DIF and every byte behind it (43_records.md R212). -/
theorem Drd.manufData_allBytes (x : Byte) (h : d.taken = [x]) : (d.manufData x).allBytes cfg = d.allBytes cfg := by
  simp [Drd.allBytes, itemBytes, h]

/-! ### Values -/

/-- Value bytes that run past the block stop the decoder (43_records.md R219). -/
theorem Drd.takeValue_short (before : List Byte) (n : Nat) (h : d.rest.length < n) :
    d.takeValue cfg before n = d.stop .truncated := by
  simp [Drd.takeValue, h]

/-- Value bytes that are there complete the record (R218). -/
theorem Drd.takeValue_complete (before : List Byte) (n : Nat) (h : n ≤ d.rest.length) :
    d.takeValue cfg before n = (d.skip n).finish cfg (before ++ d.rest.take n) := by
  simp [Drd.takeValue, Nat.not_lt.mpr h]

/-- R222, the RECORD case. -/
theorem Drd.finish_record (vb : List Byte) (h : vifValue d.vif = 0x7F#7 ∨ vifSupported cfg d.vif d.vife = true) :
    d.finish cfg vb = d.emit (.record (d.recordOf cfg vb)) := by
  rw [Drd.finish, if_pos h]

/-- R222, the OPAQUE case. -/
theorem Drd.finish_opaque (vb : List Byte) (hm : vifValue d.vif ≠ 0x7F#7)
    (hs : vifSupported cfg d.vif d.vife = false) :
    d.finish cfg vb =
      { d.emit (.opaqueBytes d.start .vifUnsupported d.taken) with
        errors := d.errors ++ [(.vifUnsupported, d.start)] } := by
  rw [Drd.finish, if_neg (by simp [hm, hs])]

/-- R218, LVAR. -/
theorem Drd.toValue_lvar (h : dataField d.dif = 0xD#4) : d.toValue cfg = { d with phase := .lvar } := by
  simp [Drd.toValue, h]

/-- R218, a data field of known width. -/
theorem Drd.toValue_fixed (h : dataField d.dif ≠ 0xD#4) :
    d.toValue cfg = d.takeValue cfg [] (valueWidth (dataField d.dif)) := by
  simp [Drd.toValue, h]

/-! ### Plain text (43_records.md R216) -/

theorem Drd.plainText_absent (h : vifValue d.vif ≠ 0x7C#7) : d.plainText = some d := by simp [Drd.plainText, h]

theorem Drd.plainText_present (h : vifValue d.vif = 0x7C#7) (k : Byte) (chars more : List Byte)
    (hr : d.rest = k :: (chars ++ more)) (hk : chars.length = k.toNat) :
    d.plainText =
      some { d with text := chars, taken := d.taken ++ k :: chars, rest := more, pos := d.pos + (1 + k.toNat) } := by
  simp [Drd.plainText, h, hr, ← hk, Drd.skip, Nat.add_comm 1]

theorem Drd.plainText_truncated (h : vifValue d.vif = 0x7C#7)
    (hr : d.rest = [] ∨ ∃ k more, d.rest = k :: more ∧ more.length < k.toNat) : d.plainText = none := by
  rcases hr with hr | ⟨k, more, hr, hl⟩
  · simp [Drd.plainText, h, hr]
  · simp [Drd.plainText, h, hr, hl]

/-! ### The loop -/

/-- The loop that has ended stays as it is. -/
@[simp] theorem Drd.next_done (h : d.phase = .done) : d.next cfg = d := by
  obtain ⟨phase, pos, rest, start, taken, dif, dife, vif, text, vife, items, errors⟩ := d
  cases h
  cases rest <;> rfl

theorem Drd.run_done (n : Nat) (h : d.phase = .done) : Drd.run cfg n d = d := by
  induction n with
  | zero => rfl
  | succ n ih => rw [Drd.run, Drd.next_done cfg d h, ih]

theorem Drd.run_add (m n : Nat) : Drd.run cfg (m + n) d = Drd.run cfg n (Drd.run cfg m d) := by
  induction m generalizing d with
  | zero => simp [Drd.run]
  | succ m ih => rw [Nat.succ_add, Drd.run, ih, Drd.run]

/-- The end of the block at a DIF's place ends the loop. -/
theorem Drd.next_end (h : d.phase = .dif) (hr : d.rest = []) : d.next cfg = { d with phase := .done } := by
  obtain ⟨phase, pos, rest, start, taken, dif, dife, vif, text, vife, items, errors⟩ := d
  cases h
  cases hr
  rfl

/-! ### The rows -/

/-- What a row of the decoder's spaces can do: run where it is selected, or be refused by name. -/
theorem whenReading_next {phase : DrdPhase} {f : Drd → Drd} {s t : State} (h : whenReading phase f s = .next t) :
    s.drd.phase = phase ∧ t = { s with drd := f s.drd } := by
  unfold whenReading at h
  split at h
  · rename_i hp
    cases h
    exact ⟨hp, rfl⟩
  · cases h

theorem whenReading_selected {phase : DrdPhase} (f : Drd → Drd) (s : State) (h : s.drd.phase = phase) :
    whenReading phase f s = .next { s with drd := f s.drd } := if_pos h

theorem whenReading_refused {phase : DrdPhase} (f : Drd → Drd) (s : State) (h : s.drd.phase ≠ phase) :
    whenReading phase f s = .refused .notSelected := if_neg h

end Sys2Proof.Machine
end

