-- ==== Sys2Proof/Laws/Step.lean ====
section
/-! SUPPORT. What a step and a command can do, said once: the cases of `step`, and for each command the next state it
answers. -/

namespace Sys2Proof.Machine

open Sys2Proof.Config

/-! ### Step -/

/-- A step that answers a next state either had no command to take, or ran the next one. -/
theorem step_next {s t : State} (h : step s = .next t) :
    (s.pending = [] ∧ t = s) ∨
      ∃ p ps i, s.pending = p :: ps ∧ decode p = .ok i ∧ exec i { s with pending := ps } = .next t := by
  unfold step State.takeCommand at h
  cases hp : s.pending with
  | nil =>
    simp only [hp] at h
    cases h
    exact .inl ⟨rfl, rfl⟩
  | cons p ps =>
    simp only [hp] at h
    cases hd : decode p with
    | error e => simp [hd] at h
    | ok i => exact .inr ⟨p, ps, i, rfl, hd, by simpa [hd] using h⟩

/-- The command space's decoder reads commands only. -/
theorem decode_format {p : Packet} {i : Instr} (h : decode p = .ok i) : i.format = .cmd8 := by
  change decodeCommand p = .ok i at h
  unfold decodeCommand at h
  split at h
  case h_12 =>
    split at h
    · cases h
    · cases h; rfl
  all_goals cases h; rfl

/-! ### Rows of the parser's spaces -/

theorem whenExpecting_next {sel : PState} {f : Parser → Except Fault Parser} {s t : State}
    (h : whenExpecting sel f s = .next t) : s.parser.st = sel ∧ ∃ p, f s.parser = .ok p ∧ t = { s with parser := p } := by
  unfold whenExpecting at h
  split at h
  · rename_i hs
    cases hf : f s.parser with
    | ok p =>
      simp only [hf] at h
      cases h
      exact ⟨hs, p, rfl, rfl⟩
    | error e => simp [hf] at h
  · cases h

theorem whenExpecting_refused {sel : PState} (f : Parser → Except Fault Parser) (s : State) (h : s.parser.st ≠ sel) :
    whenExpecting sel f s = .refused .notSelected := if_neg h

/-! ### Commands -/

/-- PUSH_BYTE that answers a next state wrote the parser and its result, and nothing else. -/
theorem execPushByte_next {b : Byte} {s t : State} (h : execPushByte b s = .next t) :
    ∃ p, s.parser.pushByte s.params b = .ok p ∧
      t = { s with parser := p, results := s.results ++ [.status p.status] } := by
  unfold execPushByte at h
  cases hp : s.parser.pushByte s.params b with
  | ok p =>
    simp only [hp] at h
    cases h
    exact ⟨p, rfl, rfl⟩
  | error e => simp [hp] at h

/-- PUSH_BUF likewise. -/
theorem execPushBuf_next {bs : List Byte} {s t : State} (h : execPushBuf bs s = .next t) :
    ∃ k errors p, s.parser.pushBuf s.params bs 0 0 = .ok (k, errors, p) ∧
      t = { s with parser := p, results := s.results ++ [.pushed k errors p.status] } := by
  unfold execPushBuf at h
  cases hp : s.parser.pushBuf s.params bs 0 0 with
  | ok r =>
    obtain ⟨k, errors, p⟩ := r
    simp only [hp] at h
    cases h
    exact ⟨k, errors, p, rfl, rfl⟩
  | error e => simp [hp] at h

/-- GET_FRAME with nothing retained changes nothing but its result. -/
theorem execGetFrame_empty {s : State} (h : s.parser.frameReady = false) :
    execGetFrame s = .next { s with results := s.results ++ [.frame [0xFF]] } := by
  simp [execGetFrame, h, answer, State.respond, frameResultLayout]

/-- GET_FRAME with a frame retained delivers it. -/
theorem execGetFrame_ready {s : State} (h : s.parser.frameReady = true) :
    execGetFrame s =
      .next
        { s with
          parser := { s.parser with frameReady := !s.params.getFrameConsumes },
          framesOut := s.framesOut ++ [s.parser.fr], results := s.results ++ [.frame (frameLayout s.parser.fr)] } := by
  simp [execGetFrame, h, answer, State.respond, frameResultLayout]

/-- Every result but RESET's and the decoder's is the command's only effect (20_memory.md R59). -/
theorem answer_eq (r : Result) (s : State) : answer r s = .next { s with results := s.results ++ [r] } := rfl

/-- A decode command leaves the working context idle (10_state.md R20). -/
theorem execDecodePayload_next (ci : Byte) (data : List Byte) (s : State) :
    ∃ r, execDecodePayload ci data s =
      .next { s with drd := Drd.idle, results := s.results ++ [.response r] } := by
  unfold execDecodePayload
  split
  · exact ⟨_, rfl⟩
  · split <;> exact ⟨_, rfl⟩

theorem execDecodeRecords_next (data : List Byte) (s : State) :
    ∃ r, execDecodeRecords data s = .next { s with drd := Drd.idle, results := s.results ++ [.records r] } := ⟨_, rfl⟩

/-! ### PUSH_BUF's counters -/

/-- The counters that PUSH_BUF starts from are added to those it answers from zero. -/
theorem Parser.pushBuf_shift (cfg : Params) (bs : List Byte) (p : Parser) (k errors k' errors' : Nat) :
    p.pushBuf cfg bs (k' + k) (errors' + errors) =
      (p.pushBuf cfg bs k errors).map fun r => (k' + r.1, errors' + r.2.1, r.2.2) := by
  induction bs generalizing p k errors with
  | nil => rfl
  | cons b bs ih =>
    simp only [Parser.pushBuf]
    cases p.pushByte cfg b with
    | error e => rfl
    | ok q =>
      simp only
      rw [Nat.add_assoc, Nat.add_assoc]
      split
      · rfl
      · exact ih q _ _

end Sys2Proof.Machine
end

