-- ==== Sys2Proof/Machine/Assembler.lean ====
section
/-! DEFINITION. The assembler syntax of 30_encoding.md R96: the text of a command line. Bytes are hex pairs separated by
spaces; the brackets in R96's table say that the data may be absent, as its examples in 95_test_vectors.md show
(DESIGN CHOICE, notes/assumptions/19.md). ENCODEPL's response has no text (it is a structured value, R71), and a
reserved code is written as its hex pair (95_test_vectors.md program 4). -/

namespace Sys2Proof.Machine

/-- A hexadecimal digit. -/
def hexDigit (n : Nat) : Char := "0123456789ABCDEF".toList.getD n '?'

/-- A byte as a hex pair (00_scope.md R14). -/
def hexByte (b : Byte) : List Char := [hexDigit (b.toNat / 16), hexDigit (b.toNat % 16)]

/-- Each byte as a space and its hex pair. -/
def hexBytes (bs : List Byte) : List Char := bs.flatMap fun b => ' ' :: hexByte b

/-- `<frame>` (R96). -/
def frameText : Frame → List Char
  | .single => "SINGLE".toList
  | .short c a => "SHORT".toList ++ hexBytes [c, a]
  | .control c a ci => "CONTROL".toList ++ hexBytes [c, a, ci]
  | .long c a ci data => "LONG".toList ++ hexBytes [c, a, ci] ++ hexBytes data

/-- The line of a command; `none` where R96 gives it no text: ENCODEPL's operand, an ENCODE operand that is no Frame,
and the rows that are no commands. -/
def assemblyText : Instr → Option (List Char)
  | .pushByte b => some ("PUSH".toList ++ hexBytes [b])
  | .pushBuf bs => some ("PUSHBUF".toList ++ hexBytes bs)
  | .getFrame => some "GETFRAME".toList
  | .getState => some "GETSTATE".toList
  | .reset => some "RESET".toList
  | .checksum bs => some ("CHECKSUM".toList ++ hexBytes bs)
  | .validateMarkers start stop lenA lenB => some ("VALIDATE".toList ++ hexBytes [start, stop, lenA, lenB])
  | .encodeFrame operand =>
    match checkOperand operand with
    | .ok f => some ("ENCODE ".toList ++ frameText f)
    | .error _ => none
  | .decodePayload ci data => some ("DECODE".toList ++ hexBytes [ci] ++ hexBytes data)
  | .decodeRecords data => some ("DECODEREC".toList ++ hexBytes data)
  | .illegalCommand code => some (hexByte code)
  | _ => none

end Sys2Proof.Machine
end

