-- ==== Sys2Proof/Machine/Views.lean ====
section
/-! DEFINITION. Names the spec gives to bytes the block carries unchanged (30_encoding.md R80 to R83, 44_values.md R262,
43_records.md R227). They are informational: no rule of the block reads them, and no step does. -/

namespace Sys2Proof.Machine

/-- A C field by its bits (R80). -/
structure ControlField where
  prm      : Bool
  /-- FCB from the master, ACD from the slave -/
  bit5     : Bool
  /-- FCV from the master, DFC from the slave -/
  bit4     : Bool
  function : BitVec 4
  deriving DecidableEq, Repr

/-- The fields of a C byte (R80). -/
def controlFieldOf (c : Byte) : ControlField :=
  { prm := c.getLsbD 6, bit5 := c.getLsbD 5, bit4 := c.getLsbD 4, function := c.extractLsb' 0 4 }

/-- The conventional address classes (R82). -/
inductive AddressClass where
  | unconfigured | slave | reserved | secondary | broadcastWithReply | broadcastWithoutReply
  deriving DecidableEq, Repr

/-- The class of an A byte (R82). -/
def addressClassOf (a : Byte) : AddressClass :=
  if a.toNat = 0 then .unconfigured
  else if a.toNat ≤ 250 then .slave
  else if a.toNat ≤ 252 then .reserved
  else if a.toNat = 253 then .secondary
  else if a.toNat = 254 then .broadcastWithReply
  else .broadcastWithoutReply

/-- The CI values R83 lists. -/
inductive CiMeaning where
  | applicationReset | dataSend | slaveSelection | variableResponse12 | fixedResponse | variableResponseMsbFirst
  | fixedResponseMsbFirst | variableResponseNoHeader | variableResponse4
  deriving DecidableEq, Repr

/-- The meaning of a CI byte (R83). -/
def ciMeaningOf (ci : Byte) : Option CiMeaning :=
  match ci with
  | 0x50#8 => some .applicationReset
  | 0x51#8 => some .dataSend
  | 0x52#8 => some .slaveSelection
  | 0x72#8 => some .variableResponse12
  | 0x73#8 => some .fixedResponse
  | 0x76#8 => some .variableResponseMsbFirst
  | 0x77#8 => some .fixedResponseMsbFirst
  | 0x78#8 => some .variableResponseNoHeader
  | 0x7A#8 => some .variableResponse4
  | _ => none

/-- The names of the FUNCTION field (R262). -/
inductive FunctionName where
  | instantaneous | maximum | minimum | errorState
  deriving DecidableEq, Repr

/-- The name of a FUNCTION value (R262). -/
def functionNameOf (f : BitVec 2) : FunctionName :=
  match f with
  | 0#2 => .instantaneous
  | 1#2 => .maximum
  | 2#2 => .minimum
  | _ => .errorState

/-- A record's plain-text unit in reading order (43_records.md R216, 44_values.md R258). -/
def unitText (r : Record) : List Byte := r.textWire.reverse

/-- The operands a frame gives DECODE_PAYLOAD (43_records.md R227). -/
def payloadOf : Frame → Option (Byte × List Byte)
  | .long _ _ ci data => some (ci, data)
  | .control _ _ ci => some (ci, [])
  | .short _ _ => none
  | .single => none

end Sys2Proof.Machine
end

