-- ==== Sys2Proof/Tests/Slice0.lean ====
section
/-! SUPPORT. Tests on fixed values: ill-formed terms the check refuses, words written out from the tables of
30_encoding.md, single commands from 95_test_vectors.md, and for each statement with hypotheses a state and operands
that meet them. -/

namespace Sys2Proof.Tests

open Sys2Proof Sys2Proof.Machine Sys2Proof.Config Sys2Proof.Claims

/-! ### Helpers -/

/-- The state a step leaves, where it leaves one. -/
def stateAfter (o : Host.Outcome State Fault Refusal) : Option State :=
  match o with
  | .next s => some s
  | .fault _ => none
  | .refused _ => none

/-- The last result a step leaves. -/
def resultOf (o : Host.Outcome State Fault Refusal) : Option Result := (stateAfter o).bind fun s => s.results.getLast?

/-- The parser a step leaves. -/
def parserOf (o : Host.Outcome State Fault Refusal) : Option Parser := (stateAfter o).map State.parser

/-- The decoder's context a step leaves. -/
def drdOf (o : Host.Outcome State Fault Refusal) : Option Drd := (stateAfter o).map State.drd

/-- The machine after reset with the parser in state `st`. -/
def inState (st : PState) : State := { State.reset with parser := { Parser.reset with st := st } }

/-- The machine after reset with the decoder at `phase`, a record with DIF `dif` and VIF `vif` begun, `rest` to read. -/
def reading (phase : DrdPhase) (dif vif : Byte) (rest : List Byte) : State :=
  { State.reset with drd := { Drd.idle with phase := phase, dif := dif, vif := vif, rest := rest } }

/-- The machine after reset with the parameters changed. -/
def withParams (f : Params → Params) : State := { State.reset with params := f Params.default }

/-- The parser with one data byte of the frame of vector P-A7 still to come: `68 04 04 68 53 FE 51` taken. -/
def beforeData : Parser :=
  { Parser.reset with
    st := .expectData, wKind := .long, wLen := 4, wC := 0x53, wA := 0xFE, wCI := 0x51, wRem := 1, wIdx := 0,
    wSum := 0xA2 }

/-- A frame retained, as after vector P-A2. -/
def retained : Parser := { Parser.reset with fr := .short 0x7B 0x01, frameReady := true }

/-- The machine with the parser `p`. -/
def withParser (p : Parser) : State := { State.reset with parser := p }

/-- The values of a decoded block's records. -/
def valuesOf (cfg : Params) (bs : List Byte) : List Value :=
  (Drd.decodeFrom cfg bs 0).items.filterMap fun
    | .record r => some r.value
    | _ => none

/-- The wire bytes of the telegram of 95_test_vectors.md section 3. -/
def telegram : List Byte :=
  [0x68, 0x1F, 0x1F, 0x68, 0x08, 0x02, 0x72, 0x78, 0x56, 0x34, 0x12, 0x24, 0x40, 0x01, 0x07, 0x55, 0x00, 0x00, 0x00,
    0x03, 0x13, 0x15, 0x31, 0x00, 0xDA, 0x02, 0x3B, 0x13, 0x01, 0x8B, 0x60, 0x04, 0x37, 0x18, 0x02, 0x18, 0x16]

/-- Its 28 data bytes. -/
def telegramData : List Byte := (telegram.drop 7).take 28

/-! ### Ill-formed terms -/

theorem test_wf_illegalCommand : (Instr.illegalCommand 0x31).wellFormed = false := by decide
theorem test_wf_difReserved : (Instr.difReserved 0x7).wellFormed = false := by decide
theorem test_wf_vifPrimary : (Instr.vifPrimary true 0x6F).wellFormed = false := by decide
theorem test_wf_lvarText : (Instr.lvarText 0xC0).wellFormed = false := by decide
theorem test_wf_lvarBcdPos : (Instr.lvarBcdPos 0xA).wellFormed = false := by decide
theorem test_wf_lvarBcdNeg : (Instr.lvarBcdNeg 0xA).wellFormed = false := by decide
theorem test_wf_lvarReserved : (Instr.lvarReserved 0xE0).wellFormed = false := by decide

/-! ### Words, written out from 30_encoding.md -/

/-- R70 and R72. -/
theorem test_decode_commands :
    decode { code := 0x01, operands := [0xE5] } = .ok (.pushByte 0xE5) ∧
    decode { code := 0x02, operands := [0x10, 0x40] } = .ok (.pushBuf [0x10, 0x40]) ∧
    decode { code := 0x03 } = .ok .getFrame ∧
    decode { code := 0x04 } = .ok .getState ∧
    decode { code := 0x05 } = .ok .reset ∧
    decode { code := 0x10, operands := [0x7B, 0x01] } = .ok (.checksum [0x7B, 0x01]) ∧
    decode { code := 0x11, operands := [0x68, 0x16, 0x04, 0x05] } = .ok (.validateMarkers 0x68 0x16 0x04 0x05) ∧
    decode { code := 0x20, operands := [0x01, 0x7B, 0x01, 0x00, 0x00] } =
      .ok (.encodeFrame [0x01, 0x7B, 0x01, 0x00, 0x00]) ∧
    decode { code := 0x21, response := some UserDataResponse.empty } = .ok (.encodePayload UserDataResponse.empty) ∧
    decode { code := 0x30, operands := [0x78, 0x2F] } = .ok (.decodePayload 0x78 [0x2F]) ∧
    decode { code := 0x31, operands := [0x2F, 0x2F] } = .ok (.decodeRecords [0x2F, 0x2F]) ∧
    decode { code := 0x32, operands := [0x01] } = .ok (.illegalCommand 0x32) := by decide

/-- A command with operands that are not its own. -/
theorem test_decode_operands : decode { code := 0x01 } = .error (.operands 0x01) ∧
    decode { code := 0x21 } = .error (.operands 0x21) ∧ decode { code := 0x30 } = .error (.operands 0x30) := by decide

/-- 10_state.md R22. -/
theorem test_decode_arms :
    decodeIn .state4 { code := 0x00, operands := [0x68] } = .ok (.armExpectStart 0x68) ∧
    decodeIn .state4 { code := 0x01, operands := [0x1F] } = .ok (.armExpectLength 0x1F) ∧
    decodeIn .state4 { code := 0x02, operands := [0x1F] } = .ok (.armExpectLengthRepeat 0x1F) ∧
    decodeIn .state4 { code := 0x03, operands := [0x68] } = .ok (.armExpectStart2 0x68) ∧
    decodeIn .state4 { code := 0x04, operands := [0x08] } = .ok (.armExpectControl 0x08) ∧
    decodeIn .state4 { code := 0x05, operands := [0x02] } = .ok (.armExpectAddress 0x02) ∧
    decodeIn .state4 { code := 0x06, operands := [0x72] } = .ok (.armExpectControlInfo 0x72) ∧
    decodeIn .state4 { code := 0x07, operands := [0x78] } = .ok (.armExpectData 0x78) ∧
    decodeIn .state4 { code := 0x08, operands := [0x18] } = .ok (.armExpectChecksum 0x18) ∧
    decodeIn .state4 { code := 0x09, operands := [0x16] } = .ok (.armExpectStop 0x16) ∧
    decodeIn .state4 { code := 0x0A, operands := [0x16] } = .error (.noRow .state4 0x0A) := by decide

/-- R74 and R81. -/
theorem test_decode_starts_and_controls :
    decodeIn .wireStart8 { code := 0xE5 } = .ok .frameSingle ∧
    decodeIn .wireStart8 { code := 0x10 } = .ok .frameShort ∧
    decodeIn .wireStart8 { code := 0x68 } = .ok .frameControlOrLong ∧
    decodeIn .wireStart8 { code := 0x16 } = .error (.noRow .wireStart8 0x16) ∧
    decodeIn .cfield8 { code := 0b01000000 } = .ok .cSndNke ∧
    decodeIn .cfield8 { code := 0b01110011 } = .ok (.cSndUd true) ∧
    decodeIn .cfield8 { code := 0b01011011 } = .ok (.cReqUd2 false) ∧
    decodeIn .cfield8 { code := 0b01111010 } = .ok (.cReqUd1 true) ∧
    decodeIn .cfield8 { code := 0b00101000 } = .ok (.cRspUd true false) ∧
    decodeIn .cfield8 { code := 0b01010000 } = .error (.noRow .cfield8 0x50) := by decide

/-- R87, R88 and R89: EXT, STORAGE_LSB, FUNCTION, data field. -/
theorem test_decode_dif :
    decodeIn .dif8 { code := 0b00001111 } = .ok .difManufData ∧
    decodeIn .dif8 { code := 0b00011111 } = .ok .difManufDataMore ∧
    decodeIn .dif8 { code := 0b00101111 } = .ok .difIdleFill ∧
    decodeIn .dif8 { code := 0b01111111 } = .ok .difGlobalReadout ∧
    decodeIn .dif8 { code := 0b00111111 } = .ok (.difReserved 0b0011) ∧
    decodeIn .dif8 { code := 0b00000000 } = .ok (.difNoData ⟨false, false, 0b00⟩) ∧
    decodeIn .dif8 { code := 0b10000001 } = .ok (.difInt8 ⟨true, false, 0b00⟩) ∧
    decodeIn .dif8 { code := 0b01000010 } = .ok (.difInt16 ⟨false, true, 0b00⟩) ∧
    decodeIn .dif8 { code := 0b00100011 } = .ok (.difInt24 ⟨false, false, 0b10⟩) ∧
    decodeIn .dif8 { code := 0b11000100 } = .ok (.difInt32 ⟨true, true, 0b00⟩) ∧
    decodeIn .dif8 { code := 0b00110101 } = .ok (.difReal32 ⟨false, false, 0b11⟩) ∧
    decodeIn .dif8 { code := 0b00000110 } = .ok (.difInt48 ⟨false, false, 0b00⟩) ∧
    decodeIn .dif8 { code := 0b00010111 } = .ok (.difInt64 ⟨false, false, 0b01⟩) ∧
    decodeIn .dif8 { code := 0b00001000 } = .ok (.difSelection ⟨false, false, 0b00⟩) ∧
    decodeIn .dif8 { code := 0b10001001 } = .ok (.difBcd2 ⟨true, false, 0b00⟩) ∧
    decodeIn .dif8 { code := 0b11011010 } = .ok (.difBcd4 ⟨true, true, 0b01⟩) ∧
    decodeIn .dif8 { code := 0b10001011 } = .ok (.difBcd6 ⟨true, false, 0b00⟩) ∧
    decodeIn .dif8 { code := 0b00001100 } = .ok (.difBcd8 ⟨false, false, 0b00⟩) ∧
    decodeIn .dif8 { code := 0b00001101 } = .ok (.difLvar ⟨false, false, 0b00⟩) ∧
    decodeIn .dif8 { code := 0b01001110 } = .ok (.difBcd12 ⟨false, true, 0b00⟩) := by decide

/-- R90, R92 and R93. -/
theorem test_decode_chains :
    decodeIn .dife8 { code := 0b01100000 } = .ok (.dife false true 0b10 0b0000) ∧
    decodeIn .vif8 { code := 0b11101111 } = .ok (.vifUnsupported6F true) ∧
    decodeIn .vif8 { code := 0b11111011 } = .ok (.vifExtTableFB true) ∧
    decodeIn .vif8 { code := 0b01111100 } = .ok (.vifPlainText false) ∧
    decodeIn .vif8 { code := 0b11111101 } = .ok (.vifExtTableFD true) ∧
    decodeIn .vif8 { code := 0b01111110 } = .ok (.vifAny false) ∧
    decodeIn .vif8 { code := 0b11111111 } = .ok (.vifManufacturer true) ∧
    decodeIn .vif8 { code := 0b00010011 } = .ok (.vifPrimary false 0b0010011) ∧
    decodeIn .vife8 { code := 0b10000101 } = .ok (.vife true 0b0000101) ∧
    decodeIn .lvar8 { code := 0b10111111 } = .ok (.lvarText 0xBF) ∧
    decodeIn .lvar8 { code := 0b11001001 } = .ok (.lvarBcdPos 0b1001) ∧
    decodeIn .lvar8 { code := 0b11001010 } = .ok (.lvarReserved 0xCA) ∧
    decodeIn .lvar8 { code := 0b11010001 } = .ok (.lvarBcdNeg 0b0001) ∧
    decodeIn .lvar8 { code := 0b11101111 } = .ok (.lvarBinary 0b1111) ∧
    decodeIn .lvar8 { code := 0b11110000 } = .ok (.lvarReserved 0xF0) := by decide

/-- A table word is a command (notes/assumptions/2.md), operands of zeros included. -/
theorem test_tableWord : decodeTableWord 8 0x11 = some (.validateMarkers 0 0 0 0) ∧
    decodeTableWord 8 0x80 = some (.illegalCommand 0x80) := by decide

/-- The very next step runs a fetched word. -/
theorem test_withFetchWord : resultOf (step (State.reset.withFetchWord 8 0x04)) = some (.status 0) := by decide

/-! ### The parser (95_test_vectors.md sections 3 and 4) -/

/-- P-A1. -/
theorem test_pushByte_single : resultOf (exec (.pushByte 0xE5) State.reset) = some (.status 0x00000010) := by decide
/-- P-E1: LAST_ERR and ERR_EVENT. -/
theorem test_pushByte_badStart : resultOf (exec (.pushByte 0x00) State.reset) = some (.status 0x00000120) := by decide
/-- Section 3, the whole telegram. -/
theorem test_pushBuf_telegram : resultOf (exec (.pushBuf telegram) State.reset) = some (.pushed 37 0 0x00000010) := by
  decide
/-- P-B4: the byte after a completed frame is not consumed. -/
theorem test_pushBuf_stops : resultOf (exec (.pushBuf [0x00, 0xE5, 0xFF]) State.reset) =
    some (.pushed 2 1 0x00000110) := by decide
/-- P-G3. -/
theorem test_getFrame : resultOf (exec .getFrame (withParser retained)) = some (.frame [0x01, 0x7B, 0x01, 0x00, 0x00]) ∧
    (parserOf (exec .getFrame (withParser retained))).map Parser.frameReady = some false := by decide
/-- P-G5. -/
theorem test_getFrame_none : resultOf (exec .getFrame State.reset) = some (.frame [0xFF]) := by decide
/-- REMAINING shows W_REM in EXPECT_DATA (section 3's trace, its last data byte). -/
theorem test_getState : resultOf (exec .getState (withParser beforeData)) = some (.status 0x00010007) := by decide
/-- P-R2: RESET clears LAST_ERR. -/
theorem test_reset : resultOf (exec .reset (withParser { Parser.reset with lastErr := some .badStart })) =
    some (.status 0x00000000) := by decide
/-- P-E2 and P-E2b: L below 3. -/
theorem test_armExpectLength : (parserOf (exec (.armExpectLength 0x02) (inState .expectLength))).map Parser.lastErr =
    some (some .lengthRange) := by decide
/-- P-A8: no START2 where P_LONG_START2 = false. -/
theorem test_armExpectLengthRepeat :
    (parserOf
      (exec (.armExpectLengthRepeat 0x00)
        { inState .expectLengthRepeat with params := { Params.default with longStart2 := false } })).map Parser.st =
      some .expectControl := by decide
/-- P-E4. -/
theorem test_armExpectStart2 : (parserOf (exec (.armExpectStart2 0x67) (inState .expectStart2))).map Parser.status =
    some 0x00000420 := by decide
/-- P-A5: the sum wraps. -/
theorem test_armExpectAddress :
    (parserOf
      (exec (.armExpectAddress 0xFF) (withParser { Parser.reset with st := .expectAddress, wSum := 0xFF }))).map
        (fun p => (p.st, p.wSum)) = some (.expectChecksum, 0xFE) := by decide
/-- P-A6: a control frame has no data. -/
theorem test_armExpectControlInfo :
    (parserOf
      (exec (.armExpectControlInfo 0x50) (withParser { Parser.reset with st := .expectControlInfo, wLen := 3 }))).map
        Parser.st = some .expectChecksum := by decide
/-- P-A7: the last data byte. -/
theorem test_armExpectData :
    (parserOf (exec (.armExpectData 0x01) (withParser beforeData))).map
      (fun p => (p.st, p.wSum, p.wRem, p.wIdx, p.buf[0])) = some (.expectChecksum, 0xA3, 0, 1, 0x01) := by decide
/-- P-E5. -/
theorem test_armExpectChecksum :
    (parserOf
      (exec (.armExpectChecksum 0x7D) (withParser { Parser.reset with st := .expectChecksum, wSum := 0x7C }))).map
        Parser.status = some 0x00000520 := by decide
/-- P-A2's last byte. -/
theorem test_armExpectStop :
    (parserOf
      (exec (.armExpectStop 0x16) (withParser { Parser.reset with st := .expectStop, wC := 0x7B, wA := 0x01 }))).map
        (fun p => (p.status, p.fr)) = some (0x00000010, .short 0x7B 0x01) := by decide
/-- A named C value is taken as its byte (R79, R81). -/
theorem test_cReqUd2 : (parserOf (exec (.cReqUd2 true) (inState .expectControl))).map (fun p => (p.wC, p.wSum)) =
    some (0x7B, 0x7B) := by decide

/-! ### Codec and encoder (95_test_vectors.md sections 2 and 5) -/

/-- K3. -/
theorem test_checksum_wraps : resultOf (exec (.checksum [0xFF, 0xFF]) State.reset) = some (.sum 0xFE) := by decide
/-- K13: lengths are checked before the stop byte. -/
theorem test_validateMarkers : resultOf (exec (.validateMarkers 0x68 0x17 0x03 0x04) State.reset) =
    some (.markers (some .lengthMismatch)) := by decide
/-- E7. -/
theorem test_encode_long : resultOf (exec (.encodeFrame [0x03, 0x53, 0xFE, 0x51, 0x01, 0x01]) State.reset) =
    some (.bytes [0x68, 0x04, 0x04, 0x68, 0x53, 0xFE, 0x51, 0x01, 0xA3, 0x16]) := by decide
/-- E12. -/
theorem test_encode_badOperand : resultOf (exec (.encodeFrame [0x03, 0x53, 0x01, 0x50, 0x02, 0x01]) State.reset) =
    some (.encodingError .badOperand) := by decide
/-- EP2: decoded and encoded again, the FILL items kept. -/
theorem test_encodePayload :
    (match resultOf (exec (.decodePayload 0x78 [0x2F, 0x2F, 0x05, 0x2B, 0x00, 0x00, 0x80, 0x3F, 0x2F]) State.reset) with
      | some (.response r) => resultOf (exec (.encodePayload r) State.reset)
      | _ => none) = some (.bytes [0x2F, 0x2F, 0x05, 0x2B, 0x00, 0x00, 0x80, 0x3F, 0x2F]) := by decide
/-- Program 4: the mark is set. -/
theorem test_illegalCommand : (stateAfter (exec (.illegalCommand 0x06) State.reset)).map State.refusalMark = some true := by
  decide

/-! ### Decoder (95_test_vectors.md sections 3 and 6) -/

/-- Section 3: header fields and the three records' places. -/
theorem test_decodePayload_telegram :
    (match resultOf (exec (.decodePayload 0x72 telegramData) State.reset) with
      | some (.response r) => some (r.header, r.items.map itemOffset, r.dataBlockCount, r.isLastPackage)
      | _ => none) =
    some
      (.h12
        { id := 0x12345678, man := 0x4024, ver := 0x01, med := 0x07, acc := 0x55, st := 0x00, sig := 0x0000,
          idDecimal := some 12345678, manLetters := ⟨0x50, 0x41, 0x44⟩, mediumName := .water },
        [12, 17, 22], 3, true) := by decide
/-- D-H4. -/
theorem test_decodePayload_short :
    (match resultOf (exec (.decodePayload 0x72 []) State.reset) with
      | some (.response r) => r.errors
      | _ => []) = [(.headerTruncated, 0)] := by decide
/-- D-M1. -/
theorem test_decodeRecords_more :
    (match resultOf (exec (.decodeRecords [0x01, 0x13, 0x07, 0x1F, 0x01, 0x02, 0x03]) State.reset) with
      | some (.records r) => some (r.dataBlockCount, r.more)
      | _ => none) = some (2, true) := by decide
/-- D-V2, D-V8, D-V11 and D-V13. -/
theorem test_values_fixed :
    valuesOf Params.default [0x01, 0x13, 0x80] = [.int (-128)] ∧
    valuesOf Params.default [0x05, 0x2B, 0x00, 0x00, 0x80, 0x3F] = [.real 0x3F800000] ∧
    valuesOf Params.default [0x09, 0x13, 0xF5] = [.bcd (-5)] ∧
    valuesOf Params.default [0x0A, 0x13, 0xF1, 0x00] = [.bcdInvalid [0xF1, 0x00]] := by decide
/-- D-V20, D-V22, D-V24 and D-V27. -/
theorem test_values_variable :
    valuesOf Params.default [0x0D, 0xFD, 0x11, 0x05, 0x6F, 0x6C, 0x6C, 0x65, 0x68] =
      [.text [0x68, 0x65, 0x6C, 0x6C, 0x6F]] ∧
    valuesOf Params.default [0x0D, 0x13, 0xD1, 0x99] = [.bcd (-99)] ∧
    valuesOf Params.default [0x0D, 0x13, 0xE2, 0xFE, 0xFF] = [.int (-2)] ∧
    valuesOf Params.default [0x01, 0xFF, 0x21, 0xAB] = [.manufRaw [0xAB]] := by decide
/-- D-S1 and D-X3: an empty block, and a record outside P_VIF_SUPPORTED. -/
theorem test_decode_edges : (Drd.decodeFrom Params.default [] 0).items = [] ∧
    (Drd.decodeFrom Params.default [0x02, 0x6F, 0x00, 0x00, 0x01, 0x13, 0x07] 0).errors = [(.vifUnsupported, 0)] := by
  decide
/-- D-S11's cause, with P_MAX_DIFE = 1. -/
theorem test_dife_overflow :
    (drdOf
      (exec (.dife false false 0 0)
        { reading .dife 0x81 0 [0x13] with
          params := { Params.default with maxDife := 0 } })).map Drd.errors = some [(.difeOverflow, 0)] := by decide
/-- D-V28: the text stands behind the VIF. -/
theorem test_vifPlainText :
    (drdOf (exec (.vifPlainText true) (reading .vif 0x02 0 [0x03, 0x48, 0x52, 0x25, 0x74, 0xE4, 0x11]))).map
      (fun d => (d.phase, d.text, d.rest)) = some (.vife, [0x48, 0x52, 0x25], [0x74, 0xE4, 0x11]) := by decide

/-! ### Text, views and pseudo-instructions -/

/-- 30_encoding.md R96. -/
theorem test_assemblyText : assemblyText (.pushBuf [0x10, 0xFE]) = some "PUSHBUF 10 FE".toList ∧
    assemblyText (.encodeFrame [0x03, 0x53, 0xFE, 0x51, 0x01, 0x01]) = some "ENCODE LONG 53 FE 51 01".toList := by decide
/-- Names of carried bytes (R82, R83, R262). -/
theorem test_views : addressClassOf 0xFE = .broadcastWithReply ∧ ciMeaningOf 0x7A = some .variableResponse4 ∧
    functionNameOf 0b01 = .maximum := by decide
/-- Program 1's first half as LOOPBACK. -/
theorem test_loopback : (stateAfter (loopback (.short 0x7B 0x01) State.reset)).map State.framesOut =
    some [.short 0x7B 0x01] := by decide

/-! ### Witnesses: states and operands that meet the hypotheses of the statements -/

/-- The state in the middle of a frame meets the invariant. -/
theorem witness_inv : (withParser beforeData).Inv := by
  refine ⟨⟨?_, ?_, ?_, ?_⟩, rfl, ?_⟩
  · intro h; cases h
  · exact ⟨rfl, by decide, by decide, by decide, by decide⟩
  · intro h; cases h
  · intro h; cases h
  · intro h; cases h

/-- The same machine with the frame's last data byte pushed by the host. -/
def pushing : State := { withParser beforeData with pending := [{ code := 0x01, operands := [0x01] }] }

theorem witness_pushing_inv : pushing.Inv := by
  refine ⟨⟨?_, ?_, ?_, ?_⟩, rfl, ?_⟩
  · intro h; cases h
  · exact ⟨rfl, by decide, by decide, by decide, by decide⟩
  · intro h; cases h
  · intro h; cases h
  · intro h; cases h

theorem witness_DecodeOfEncode : (Instr.vifPrimary true 0x7A).WellFormed ∧ (Instr.lvarText 0xBF).WellFormed ∧
    (Instr.illegalCommand 0xFF).WellFormed := by decide

theorem witness_EncodeOfDecode :
    (decodeIn .cmd8 { code := 0x05 } = .ok .reset ∧ isCommandCode 0x05 = true) ∧
    decodeIn .cmd8 { code := 0xFF, operands := [0x01] } = .ok (.illegalCommand 0xFF) ∧
    decodeIn .dif8 { code := 0x2F } = .ok .difIdleFill := by decide

theorem witness_ReservedCodes :
    ∀ c ∈ [0x00#8, 0x06, 0x0F, 0x12, 0x1F, 0x22, 0x2F, 0x32, 0xFF],
      c.toNat = 0x00 ∨ (0x06 ≤ c.toNat ∧ c.toNat ≤ 0x0F) ∨ (0x12 ≤ c.toNat ∧ c.toNat ≤ 0x1F) ∨
        (0x22 ≤ c.toNat ∧ c.toNat ≤ 0x2F) ∨ 0x32 ≤ c.toNat := by decide

theorem witness_StepRuns : pushing.pending = { code := 0x01, operands := [0x01] } :: [] ∧
    decode { code := 0x01, operands := [0x01] } = .ok (.pushByte 0x01) := by decide

theorem witness_StepWithoutACommand : State.reset.pending = [] ∧
    (State.reset.issue [{ code := 0x01 }]).pending = { code := 0x01 } :: [] ∧
    decode { code := 0x01 } = .error (.operands 0x01) := by decide

theorem witness_StepKeepsTheInvariant : pushing.Inv ∧ ∃ t, step pushing = .next t := ⟨witness_pushing_inv, _, rfl⟩

theorem witness_IssuedCommandsAlwaysComplete : pushing.Inv ∧ pushing.WellIssued ∧ pushing.pending ≠ [] := by
  refine ⟨witness_pushing_inv, ?_, by decide⟩
  intro p hp
  have e : p = { code := 0x01, operands := [0x01] } := by simpa [pushing] using hp
  exact ⟨.pushByte 0x01, by rw [e]; decide⟩

/-- One state for each arm's statement (and for the first bytes and the named C values). -/
theorem witness_arms : ∀ st, (inState st).parser.st = st := fun _ => rfl

theorem witness_FieldArms : ∃ s : State, s.parser.st = .expectControlInfo ∧ s.parser.wLen.toNat = 3 :=
  ⟨withParser { Parser.reset with st := .expectControlInfo, wLen := 3 }, by decide⟩

theorem witness_DataArm :
    (∃ s : State, s.parser.st = .expectData ∧ s.parser.wIdx.toNat = 251 ∧ s.parser.wRem.toNat = 1) ∧
    (∃ s : State, s.parser.st = .expectData ∧ s.parser.wIdx.toNat = 0 ∧ s.parser.wRem.toNat = 252) :=
  ⟨⟨withParser { beforeData with wIdx := 251, wRem := 1 }, by decide⟩,
    ⟨withParser { beforeData with wIdx := 0, wRem := 252 }, by decide⟩⟩

theorem witness_NamedControlValues : (inState .expectControl).parser.st = .expectControl ∧
    (Instr.cRspUd true true, 0x38#8) ∈
      [(Instr.cSndNke, 0x40#8), (.cSndUd false, 0x53), (.cSndUd true, 0x73), (.cReqUd2 false, 0x5B),
        (.cReqUd2 true, 0x7B), (.cReqUd1 false, 0x5A), (.cReqUd1 true, 0x7A), (.cRspUd false false, 0x08),
        (.cRspUd false true, 0x18), (.cRspUd true false, 0x28), (.cRspUd true true, 0x38)] := by decide

/-- Between commands no row of the decoder's spaces is selected, and in EXPECT_DATA none of the others but its arm. -/
theorem witness_UnselectedRows :
    (withParser beforeData).parser.st ≠ .expectStart ∧ (withParser beforeData).parser.st ≠ .expectControl ∧
    (encode (.armExpectStop 0x16)).code ≠ (withParser beforeData).parser.st.code.setWidth 8 ∧
    (∀ phase ∈ [DrdPhase.dif, .dife, .vif, .vife, .lvar], State.reset.drd.phase ≠ phase) ∧
    Instr.frameSingle.format = .wireStart8 ∧ Instr.cSndNke.format = .cfield8 ∧
    (Instr.armExpectStop 0x16).format = .state4 ∧ Instr.difIdleFill.format = .dif8 ∧
    (Instr.dife true true 0 0).format = .dife8 ∧ (Instr.vifAny true).format = .vif8 ∧
    (Instr.vife true 0).format = .vife8 ∧ (Instr.lvarText 0).format = .lvar8 := by decide

theorem witness_PushByteCompletes :
    (State.reset.parser.st = .expectData → State.reset.parser.wIdx.toNat ≤ 251) ∧
    ∃ s : State, s.parser.st = .expectData ∧ s.parser.wIdx.toNat = 251 :=
  ⟨by decide, withParser { beforeData with wIdx := 251 }, by decide⟩

theorem witness_DataByteOutsideBuf : ∃ s : State, s.parser.st = .expectData ∧ s.parser.wIdx.toNat = 252 :=
  ⟨withParser { beforeData with wIdx := 252 }, by decide⟩

/-- A byte that raises a cause, and one that raises none. -/
theorem witness_ErrorCause :
    ((∃ t, exec (.pushByte 0x16) State.reset = .next t) ∧ raisedCause State.reset.parser 0x16 = some .badStart) ∧
    (∃ t, exec (.pushByte 0x68) State.reset = .next t) ∧ raisedCause State.reset.parser 0x68 = none :=
  ⟨⟨⟨_, rfl⟩, by decide⟩, ⟨_, rfl⟩, by decide⟩

theorem witness_PushedByteAdvances : (withParser beforeData).Inv ∧
    ∃ t, exec (.pushByte 0x01) (withParser beforeData) = .next t := ⟨witness_inv, _, rfl⟩

/-- A first byte that completes a frame; and one that does not, with a buffer behind it. -/
theorem witness_PushBufIsRepeated :
    (∃ t, exec (.pushByte 0xE5) State.reset = .next t ∧ t.parser.frameReady = true) ∧
    ∃ t u k errors, exec (.pushByte 0x00) State.reset = .next t ∧ t.parser.frameReady = false ∧
      exec (.pushBuf [0xE5]) { State.reset with parser := t.parser } = .next u ∧
      u.results = State.reset.results ++ [.pushed k errors u.parser.status] :=
  ⟨⟨_, rfl, rfl⟩, _, _, 1, 0, rfl, rfl, rfl, rfl⟩

theorem witness_GetFrame : State.reset.parser.frameReady = false ∧ (withParser retained).parser.frameReady = true := by
  decide

theorem witness_ChecksumLaws :
    (ChecksumIs State.reset [0x7B] 0x7B ∧ ChecksumIs State.reset [0x01] 0x01) ∧ [0x7B#8, 0x01].Perm [0x01, 0x7B] ∧
    (0x01#8 ≠ 0x02 ∧ ChecksumIs State.reset ([0x53, 0xFE, 0x51] ++ 0x01 :: []) 0xA3) ∧
    ChecksumIs State.reset ([] ++ 0x7B :: [] ++ 0x01 :: []) 0x7C :=
  ⟨⟨rfl, rfl⟩, List.Perm.swap _ _ _, ⟨by decide, rfl⟩, rfl⟩

/-- No data byte, and the most an operand can say beyond P_MAX_DATA. -/
theorem witness_EncodeWrites : ([] : List Byte).length = (0 : Byte).toNat ∧ (0 : Byte).toNat ≤ 252 ∧
    (List.replicate 252 (0 : Byte)).length = (0xFC : Byte).toNat ∧ (0xFC : Byte).toNat ≤ 252 :=
  ⟨rfl, by decide, List.length_replicate, by decide⟩

theorem witness_EncodeRejects :
    (([4, 0, 0, 0, 0] : List Byte)[0]? = some 4 ∧ 3 < (4 : Byte).toNat) ∧
    (([3, 0x53, 0x01, 0x50] : List Byte)[0]? = some 3 ∧ ([3, 0x53, 0x01, 0x50] : List Byte)[4]? = none) ∧
    ∃ data : List Byte, data.length = 253 ∧ (3 :: 0 :: 0 :: 0 :: 0xFD :: data)[0]? = some 3 ∧
      (3 :: 0 :: 0 :: 0 :: 0xFD :: data)[4]? = some 0xFD ∧
      (3 :: 0 :: 0 :: 0 :: 0xFD :: data).length = 5 + (0xFD : Byte).toNat ∧ 252 < (0xFD : Byte).toNat := by
  refine ⟨by decide, by decide, List.replicate 253 0, List.length_replicate, rfl, rfl, ?_, by decide⟩
  rw [List.length_cons, List.length_cons, List.length_cons, List.length_cons, List.length_cons, List.length_replicate]
  rfl

/-- P-A7 and E7. -/
theorem witness_pushCompletes : PushCompletes State.reset [0x68, 0x04, 0x04, 0x68, 0x53, 0xFE, 0x51, 0x01, 0xA3, 0x16] 0
    (.long 0x53 0xFE 0x51 [0x01]) := ⟨by decide, _, rfl, by decide, by decide, by decide⟩

theorem witness_encodesTo : Frame.Legal (.long 0x53 0xFE 0x51 [0x01]) ∧
    EncodesTo State.reset (.long 0x53 0xFE 0x51 [0x01]) [0x68, 0x04, 0x04, 0x68, 0x53, 0xFE, 0x51, 0x01, 0xA3, 0x16] :=
  ⟨⟨by decide, by decide⟩, rfl⟩

theorem witness_AcceptanceIsExact : State.reset.parser.st = .expectStart := rfl

theorem witness_Loopback : State.reset.parser.st = .expectStart ∧
    ∀ c a ci data, Frame.long 0x53 0xFE 0x51 (List.replicate 252 0) = .long c a ci data → data.length ≤ 252 := by
  refine ⟨rfl, fun c a ci data h => ?_⟩
  obtain ⟨-, -, -, rfl⟩ := Frame.long.inj h
  exact List.length_replicate.le

theorem witness_Resynchronization : State.reset.parser.st = .expectStart ∧
    (∀ b ∈ [0x00#8, 0xFF], b ≠ 0x10 ∧ b ≠ 0x68 ∧ b ≠ 0xE5) ∧ Frame.Legal .single ∧
    EncodesTo State.reset .single [0xE5] ∧ ∃ u, exec .reset State.reset = .next u :=
  ⟨rfl, by decide, trivial, rfl, _, rfl⟩

theorem witness_AnyFrameEnds : (withParser beforeData).Inv ∧ (List.replicate 261 (0 : Byte)).length = 261 :=
  ⟨witness_inv, List.length_replicate⟩

/-- P-E7. -/
theorem witness_CorruptedByte : State.reset.parser.st = .expectStart ∧ 1 ≤ [0x01#8].length ∧
    [0x53#8, 0xFE, 0x51, 0x01] = [0x53, 0xFE, 0x51] ++ [0x01] ∧
    EncodesTo State.reset (.long 0x53 0xFE 0x51 [0x01])
      ([0x68, 0x04, 0x04, 0x68] ++ [0x53, 0xFE, 0x51, 0x01] ++ [0xA3, 0x16]) ∧
    [0x68#8, 0x04, 0x04, 0x68].length = (if State.reset.params.longStart2 = true then 4 else 3) ∧
    3 < [0x53#8, 0xFE, 0x51, 0x01].length ∧ [0x53#8, 0xFE, 0x51, 0x01][3]? ≠ some 0x02 :=
  ⟨rfl, by decide, rfl, rfl, by decide, by decide, by decide⟩

/-- A response of `n` raw bytes. -/
def rawResponse (n : Nat) : UserDataResponse := { UserDataResponse.empty with rawTail := List.replicate n 0 }

theorem witness_EncodePayload : (payloadBytes Params.default (rawResponse 252)).length ≤ 252 ∧
    252 < (payloadBytes Params.default (rawResponse 253)).length := by
  have h (n : Nat) : (payloadBytes Params.default (rawResponse n)).length = n := List.length_replicate
  rw [h, h]
  decide

theorem witness_PayloadRoundTrip : telegramData.length ≤ 252 := by decide

theorem witness_ItemsPartition : 12 ≤ telegramData.length := by decide

theorem witness_DecodeCommands : headerKindOf State.reset.params 0x72 = some .h12 ∧
    HeaderKind.h12.length ≤ telegramData.length := by decide

theorem witness_UndecodedPayloads : headerKindOf State.reset.params 0x51 = none ∧
    headerKindOf State.reset.params 0x7A = some .h4 ∧ [0x55#8, 0x00, 0x00].length < HeaderKind.h4.length := by decide

theorem witness_BlockCount :
    (∃ t r, exec (.decodePayload 0x78 [0x1F]) State.reset = .next t ∧ t.results = State.reset.results ++ [.response r]) ∧
    State.reset.params.moreSource = .dif1F ∧
    (withParams fun p => { p with moreSource := .ciMask 0x10 }).params.moreSource = .ciMask 0x10 :=
  ⟨⟨_, _, rfl, rfl⟩, rfl, rfl⟩

theorem witness_SpecialDifRows : (reading .dif 0 0 [0x01]).drd.phase = .dif ∧
    (Instr.difManufDataMore, 0x1F#8) ∈ [(Instr.difManufData, 0x0F#8), (.difManufDataMore, 0x1F)] ∧
    (Instr.difReserved 0xF).WellFormed := by decide

theorem witness_DataDifRows : (reading .dif 0 0 []).drd.phase = .dif ∧
    (Instr.difBcd12 ⟨true, false, 0⟩, 0xE#4) ∈ dataDifRows ⟨true, false, 0⟩ ∧
    (reading .dif 0 0 []).params.bcd12 = true ∧ (withParams fun p => { p with bcd12 := false }).params.bcd12 = false := by
  decide

theorem witness_DifeRow : (reading .dife 0x81 0 []).drd.phase = .dife ∧
    (reading .dife 0x81 0 []).drd.dife.length ≠ (reading .dife 0x81 0 []).params.maxDife ∧
    (withParams fun p => { p with maxDife := 0 }).drd.dife.length =
      (withParams fun p => { p with maxDife := 0 }).params.maxDife := by decide

theorem witness_VifRowsOpen : (reading .vif 1 0 []).drd.phase = .vif ∧
    (Instr.vifPrimary true 0x7A, 0x7A#7) ∈ plainVifRows true 0x7A ∧
    (withParams fun p => { p with plainTextPos := .afterVifeChain }).params.plainTextPos = .afterVifeChain := by decide

/-- A VIF with EXT = 0; the last VIFE of a chain under AFTER_VIFE_CHAIN with its text behind it. -/
theorem witness_EndOfChain_ends :
    EndsChain (reading .vif 0x02 0 [0x05, 0x00]) (.vifPrimary false 0x13) 0x13 0x13 [] False ∧
    EndsChain
      { reading .vife 0x02 0xFC [0x01, 0x25, 0x05, 0x00] with
        params := { Params.default with plainTextPos := .afterVifeChain } }
      (.vife false 0x74) 0x74 0xFC [0x74] True := by
  constructor
  · exact .inl ⟨rfl, ⟨0x13, 0x13, by decide, by decide⟩, rfl, rfl, by decide⟩
  · exact .inr ⟨rfl, by decide, ⟨0x74, rfl, by decide⟩, rfl, rfl, by decide⟩

theorem witness_EndOfChain_text :
    TextThen (reading .vif 0x02 0 [0x05, 0x00]).drd False [] [0x05, 0x00] 0 ∧
    TextThen (reading .vife 0x02 0xFC [0x01, 0x25, 0x05, 0x00]).drd True [0x25] [0x05, 0x00] 2 := by
  constructor
  · exact .inl ⟨id, rfl, rfl, rfl⟩
  · exact .inr ⟨trivial, 0x01, rfl, rfl, rfl⟩

/-- Each clause: supported, not supported, too short, data field 0xD, and no room for the text. -/
theorem witness_EndOfChain_clauses :
    ((0x2#4, 2) ∈ fieldWidths ∧ dataField 0x02 = 0x2 ∧ 2 ≤ [0x05#8, 0x00].length ∧
      vifSupported Params.default 0x13 [] = true) ∧
    (vifValue 0x6F ≠ 0x7F ∧ vifSupported Params.default 0x6F [] = false) ∧ [0x05#8].length < 2 ∧
    dataField 0x0D = 0xD ∧ [0x25#8].length < (0x02 : Byte).toNat := by decide

theorem witness_PlainTextVifRow : (reading .vif 0x02 0 [0x01, 0x25]).drd.phase = .vif ∧
    (reading .vif 0x02 0 [0x01, 0x25]).params.plainTextPos = .afterVif ∧
    (reading .vif 0x02 0 [0x01, 0x25]).drd.rest = 0x01 :: ([0x25] ++ []) ∧ [0x25#8].length = (0x01 : Byte).toNat ∧
    (reading .vif 0x02 0 [0x02, 0x25]).drd.rest = 0x02 :: [0x25] ∧ [0x25#8].length < (0x02 : Byte).toNat := by decide

theorem witness_VifeRow : (reading .vife 0x02 0x93 []).drd.phase = .vife ∧
    (reading .vife 0x02 0x93 []).drd.vife.length ≠ (reading .vife 0x02 0x93 []).params.maxVife ∧
    (withParams fun p => { p with maxVife := 0 }).drd.vife.length =
      (withParams fun p => { p with maxVife := 0 }).params.maxVife := by decide

/-- The longest text and the largest BCD count; each kind of continuation. -/
theorem witness_LvarRows :
    (reading .lvar 0x0D 0x13 [0x34, 0x12]).drd.phase = .lvar ∧
    dataField (reading .lvar 0x0D 0x13 [0x34, 0x12]).drd.dif = 0xD ∧
    (Instr.lvarText 0xBF, 0xBF#8, 191) ∈ lvarRows 0xBF 0x2 ∧ (Instr.lvarBcdPos 0x2, 0xC2#8, 2) ∈ lvarRows 0xBF 0x2 ∧
    (Instr.lvarBcdNeg 0x9, 0xD9#8, 9) ∈ lvarRows 0x00 0x9 ∧ (Instr.lvarBinary 0xF, 0xEF#8, 15) ∈ lvarRows 0x00 0xF ∧
    (reading .lvar 0x0D 0x13 [0x34, 0x12]).params.lvarExtended = true ∧
    2 ≤ (reading .lvar 0x0D 0x13 [0x34, 0x12]).drd.rest.length ∧
    (vifValue 0x13 ≠ 0x7F ∧ vifSupported Params.default 0x13 [] = true) ∧ vifValue 0xFF = 0x7F ∧
    vifSupported Params.default 0x6F [] = false ∧ (1234 < 100 ^ 2 ∧ [0x34#8, 0x12] = packBcd 2 1234) ∧
    (∃ b ∈ [0xF9#8], 9 < b.toNat % 16 ∨ 9 < b.toNat / 16) ∧
    (withParams fun p => { p with lvarExtended := false }).params.lvarExtended = false ∧
    (Instr.lvarReserved 0xCA).WellFormed := by decide

theorem witness_DecodeValue : vifValue 0xFF = 0x7F ∧ vifValue 0x13 ≠ 0x7F := by decide

theorem witness_BinaryIntegers : (withParams fun p => { p with intSigned := false }).params.intSigned = false ∧
    State.reset.params.intSigned = true := by decide

theorem witness_PackedBcd : 99 < 100 ^ 1 ∧ 5 < 10 * 100 ^ 0 ∧
    9 < (0x1A : Byte).toNat % 16 ∧ (9 < (0xF1 : Byte).toNat / 16 ∧ [0x00#8] ≠ []) := by decide

theorem witness_Letters : (0x4024 : BitVec 16).getLsbD 15 = false ∧ 0x40 ≤ (0x5F : Byte).toNat ∧
    (0x5F : Byte).toNat ≤ 0x5F ∧ 0x40 ≤ (0x40 : Byte).toNat ∧ (0x40 : Byte).toNat ≤ 0x5F := by decide

/-- A command that is none of the parser's, and RESET with an error recorded. -/
theorem witness_OnlyParserCommands :
    (Instr.getFrame.format = .cmd8 ∧ ∃ t, exec .getFrame (withParser retained) = .next t) ∧
    ∃ t, exec .reset (withParser { Parser.reset with lastErr := some .badStop }) = .next t ∧ t.parser.lastErr = none :=
  ⟨⟨rfl, _, rfl⟩, _, rfl, rfl⟩

theorem witness_PureCommands : State.reset.drd = Drd.idle := rfl

/-- Two machines that differ in a register the frame in progress does not use. -/
theorem witness_UnspecifiedRegisters :
    pushing.Inv ∧ { pushing with parser := { beforeData with fr := .short 1 2 } }.Inv ∧
    pushing.SameSeen { pushing with parser := { beforeData with fr := .short 1 2 } } := by
  refine ⟨witness_pushing_inv, ⟨⟨?_, ?_, ?_, ?_⟩, rfl, ?_⟩, ⟨rfl, rfl, rfl, rfl, ?_, ?_⟩, rfl, rfl, rfl, rfl, rfl, rfl⟩
  · intro h; cases h
  · exact ⟨rfl, by decide, by decide, by decide, by decide⟩
  · intro h; cases h
  · intro h; cases h
  · intro h; cases h
  · intro h; cases h
  · exact ⟨rfl, rfl, rfl, rfl, rfl, rfl, rfl, rfl, rfl⟩

end Sys2Proof.Tests
end

section
/-! PROOFS. The statements of 00_scope.md: which command a step runs, and that every command the host may issue completes
with exactly one result. -/

namespace Sys2Proof.Machine

/-! ### Which command a step runs -/

/-- With no command issued a step keeps the state (60_exceptions.md R314). -/
theorem step_of_pending_nil {s : State} (h : s.pending = []) : step s = .next s := by
  simp [step, State.takeCommand, h]

/-- A step runs the oldest packet that is a command, on the state without it (20_memory.md R61). -/
theorem step_of_pending_cons {s : State} {p : Packet} {ps : List Packet} {i : Instr} (h : s.pending = p :: ps)
    (hd : decode p = .ok i) : step s = exec i { s with pending := ps } := by
  simp [step, State.takeCommand, h, hd]

/-! ### Commands complete with one result (00_scope.md R17) -/

/-- The outcome `o` of a command run on `s` is a next state with exactly one result more. -/
def Completes (s : State) (o : Host.Outcome State Fault Refusal) : Prop :=
  ∃ t r, o = .next t ∧ t.results = s.results ++ [r]

theorem completes_answer {s t : State} (r : Result) (h : t.results = s.results) : Completes s (answer r t) :=
  ⟨t.respond r, r, rfl, by rw [← h]; rfl⟩

theorem execPushByte_completes (b : Byte) {s : State} (hi : s.parser.Inv) : Completes s (execPushByte b s) := by
  obtain ⟨q, hq⟩ := hi.pushByte_ok s.params b
  rw [execPushByte, hq]
  exact completes_answer _ rfl

theorem execPushBuf_completes (bs : List Byte) {s : State} (hi : s.parser.Inv) : Completes s (execPushBuf bs s) := by
  obtain ⟨k, errors, q, hq, -⟩ := hi.pushBuf s.params bs 0 0
  rw [execPushBuf, hq]
  exact completes_answer _ rfl

theorem execGetFrame_completes (s : State) : Completes s (execGetFrame s) := by
  unfold execGetFrame
  split
  · exact completes_answer _ rfl
  · exact completes_answer _ rfl

theorem execDecodePayload_completes (ci : Byte) (data : List Byte) (s : State) :
    Completes s (execDecodePayload ci data s) := by
  obtain ⟨r, hr⟩ := execDecodePayload_next ci data s
  exact ⟨_, _, hr, rfl⟩

/-- Only PUSH_BYTE and PUSH_BUF need the parser's invariant: it keeps W_IDX within BUF (10_state.md R32). -/
theorem exec_command_completes {i : Instr} {s : State} (hi : s.parser.Inv) (hc : i.format = .cmd8) :
    Completes s (exec i s) := by
  cases i with
  | pushByte b => exact execPushByte_completes b hi
  | pushBuf bs => exact execPushBuf_completes bs hi
  | getFrame => exact execGetFrame_completes s
  | decodePayload ci data => exact execDecodePayload_completes ci data s
  | illegalCommand code => exact ⟨_, .illegalCommand, rfl, rfl⟩
  | getState | reset | checksum | validateMarkers | encodeFrame | encodePayload | decodeRecords =>
    exact completes_answer _ rfl
  | _ => cases hc

/-! ### The obligations -/

/-- Settles O5: the step takes the oldest packet and its decoding selects the command. -/
theorem stepRunsTheNextCommand : Obligations.StepRunsTheNextCommand :=
  fun _ _ _ _ => step_of_pending_cons

/-- Settles O10: a step runs a command of the command space, and each of those completes under the parser's invariant. -/
theorem issuedCommandsAlwaysComplete : Obligations.IssuedCommandsAlwaysComplete := by
  intro s ⟨hi, _⟩ hw
  cases hp : s.pending with
  | nil => exact ⟨s, step_of_pending_nil hp, fun h => absurd rfl h⟩
  | cons p ps =>
    obtain ⟨i, hd⟩ := hw p (by simp [hp])
    obtain ⟨t, r, ht, hr⟩ : Completes { s with pending := ps } (exec i { s with pending := ps }) :=
      exec_command_completes hi (decode_format hd)
    exact ⟨t, (step_of_pending_cons hp hd).trans ht, fun _ => ⟨r, hr⟩⟩

end Sys2Proof.Machine
end

section
/-! PROOFS. The statements of 10_state.md: the STATUS word, the reset state, that every step keeps the invariant (R31,
R32), and which commands write the parser's registers (R33). -/

namespace Sys2Proof.Machine

open Sys2Proof.Config

/-! ### The STATUS word (10_state.md R24, R25) -/

/-- Each bit of STATUS is the bit of the one field that covers its place, or is clear. -/
theorem Parser.status_getLsbD (p : Parser) (i : Nat) (hi : i < 32) :
    p.status.getLsbD i =
      (p.st.code.getLsbD i || (decide (4 ≤ i) && (BitVec.ofBool p.frameReady).getLsbD (i - 4)) ||
        (decide (5 ≤ i) && (BitVec.ofBool p.errEvent).getLsbD (i - 5)) ||
        (decide (8 ≤ i) && (framingCode p.lastErr).getLsbD (i - 8)) ||
        (decide (16 ≤ i) && p.remaining.getLsbD (i - 16))) := by
  have below (j : Nat) : (!decide (i < j)) = decide (j ≤ i) := by
    rw [← decide_not]; exact decide_eq_decide.mpr Nat.not_lt
  simp [Parser.status, -BitVec.getLsbD_ofBool, hi, below]

/-- Settles O24: a field of STATUS is its register, since every other register's bits lie outside the field. -/
theorem statusWordFields : Obligations.StatusWordFields := by
  intro p
  refine ⟨?_, ?_, ?_, ?_, ?_, ?_, ?_, ?_⟩
  case refine_2 => rw [p.status_getLsbD 4 (by decide)]; simp
  case refine_3 => rw [p.status_getLsbD 5 (by decide)]; simp
  all_goals
    apply BitVec.eq_of_getLsbD_eq
    intro i hi
    rw [BitVec.getLsbD_extractLsb', p.status_getLsbD _ (by omega)]
    simp (disch := omega) [BitVec.getLsbD_of_ge, decide_eq_false, decide_eq_true, hi, Parser.remaining,
      -BitVec.getLsbD_ofBool]

/-! ### Reset (10_state.md R36) -/

/-- STATUS shows none of the registers that are free values after RESET. -/
theorem Parser.clear_status (n : Nat) : (Parser.clear n).status = 0x00000000#32 := by
  simp [Parser.status, Parser.remaining, PState.code, framingCode]

/-- Settles O7: RESET leaves the cleared parser and counts the draw. -/
theorem resetGivesTheResetState : Obligations.ResetGivesTheResetState := by
  refine ⟨⟨rfl, rfl, rfl, rfl, rfl⟩, fun s => ⟨Parser.clear s.draws, s.draws + 1, ?_, rfl, rfl, rfl, rfl, ?_⟩⟩
  · change answer (.status (Parser.clear s.draws).status) _ = _
    rw [Parser.clear_status, answer_eq]
  · exact Parser.clear_status _

/-- The reset state expects a start byte, with no frame retained and no error recorded. -/
theorem Parser.reset_inv : Parser.reset.Inv :=
  Parser.inv_of_frameInv _ trivial rfl rfl

/-- Settles O8: the decoder is idle and ST is not EXPECT_START2. -/
theorem resetStateMeetsTheInvariant : Obligations.ResetStateMeetsTheInvariant :=
  ⟨Parser.reset_inv, rfl, nofun⟩

/-! ### What one pushed byte and one command can do -/

/-- A data byte is taken only at an index of BUF (20_memory.md R51). -/
theorem Parser.armData_idx {b : Byte} {p q : Parser} (h : p.armData b = .ok q) : p.wIdx.toNat < 252 := by
  by_contra hx
  rw [Parser.armData, dif_neg hx] at h
  cases h

/-- A pushed byte records an error, completes a frame, or goes on with the frame: then LAST_ERR stays, and only
P_LONG_START2 leads to EXPECT_START2. -/
theorem Parser.pushByte_cases {cfg : Params} {b : Byte} {p q : Parser} (h : p.pushByte cfg b = .ok q) :
    (∃ cause, q = p.prologue.recordError cause) ∨ (∃ f, q = p.prologue.completeFrame f) ∨
      (q.lastErr = p.lastErr ∧ (q.st = .expectStart2 → cfg.longStart2 = true)) := by
  cases hs : p.st with
  | expectStart =>
    cases (p.pushByte_start cfg b hs).symm.trans h
    unfold Parser.armStart
    split_ifs
    · exact .inr (.inl ⟨_, rfl⟩)
    · exact .inr (.inr ⟨rfl, nofun⟩)
    · exact .inr (.inr ⟨rfl, nofun⟩)
    · exact .inl ⟨_, rfl⟩
  | expectLength =>
    cases (p.pushByte_length cfg b hs).symm.trans h
    unfold Parser.armLength
    split
    · exact .inl ⟨_, rfl⟩
    · exact .inr (.inr ⟨rfl, nofun⟩)
  | expectLengthRepeat =>
    cases (p.pushByte_lengthRepeat cfg b hs).symm.trans h
    unfold Parser.armLengthRepeat
    split_ifs with hb hcfg
    · exact .inl ⟨_, rfl⟩
    · exact .inr (.inr ⟨rfl, fun _ => hcfg⟩)
    · exact .inr (.inr ⟨rfl, nofun⟩)
  | expectStart2 =>
    cases (p.pushByte_start2 cfg b hs).symm.trans h
    unfold Parser.armStart2
    split
    · exact .inl ⟨_, rfl⟩
    · exact .inr (.inr ⟨rfl, nofun⟩)
  | expectControl =>
    cases (p.pushByte_control cfg b hs).symm.trans h
    exact .inr (.inr ⟨rfl, nofun⟩)
  | expectAddress =>
    cases (p.pushByte_address cfg b hs).symm.trans h
    refine .inr (.inr ⟨rfl, ?_⟩)
    rw [Parser.armAddress_st]
    split <;> nofun
  | expectControlInfo =>
    cases (p.pushByte_controlInfo cfg b hs).symm.trans h
    refine .inr (.inr ⟨rfl, ?_⟩)
    rw [Parser.armControlInfo_st]
    split <;> nofun
  | expectData =>
    have hd := (p.pushByte_data cfg b hs).symm.trans h
    have hx := Parser.armData_idx hd
    cases (Parser.armData_ok b p.prologue hx).symm.trans hd
    refine .inr (.inr ⟨rfl, ?_⟩)
    dsimp only
    split <;> nofun
  | expectChecksum =>
    cases (p.pushByte_checksum cfg b hs).symm.trans h
    unfold Parser.armChecksum
    split
    · exact .inl ⟨_, rfl⟩
    · exact .inr (.inr ⟨rfl, nofun⟩)
  | expectStop =>
    cases (p.pushByte_stop cfg b hs).symm.trans h
    unfold Parser.armStop
    split
    · exact .inl ⟨_, rfl⟩
    · exact .inr (.inl ⟨_, rfl⟩)

/-- A pushed byte takes no recorded cause away (10_state.md R28). -/
theorem Parser.pushByte_lastErr {cfg : Params} {b : Byte} {p q : Parser} (hp : p.lastErr ≠ none)
    (h : p.pushByte cfg b = .ok q) : q.lastErr ≠ none := by
  obtain ⟨cause, rfl⟩ | ⟨f, rfl⟩ | ⟨hl, -⟩ := Parser.pushByte_cases h
  · exact nofun
  · exact hp
  · rwa [hl]

/-- EXPECT_START2 is entered only where P_LONG_START2 is true (10_state.md R22). -/
theorem Parser.pushByte_expectStart2 {cfg : Params} {b : Byte} {p q : Parser} (h : p.pushByte cfg b = .ok q) :
    q.st = .expectStart2 → cfg.longStart2 = true := by
  obtain ⟨cause, rfl⟩ | ⟨f, rfl⟩ | ⟨-, hs⟩ := Parser.pushByte_cases h
  · exact nofun
  · exact nofun
  · exact hs

/-- What every pushed byte keeps, PUSH_BUF keeps (41_parser.md R132). -/
theorem Parser.pushBuf_keeps {cfg : Params} {P : Parser → Prop}
    (hstep : ∀ b p q, P p → p.pushByte cfg b = .ok q → P q) {bs : List Byte} {k errors k' errors' : Nat}
    {p q : Parser} (hp : P p) (h : p.pushBuf cfg bs k errors = .ok (k', errors', q)) : P q := by
  induction bs generalizing p k errors with
  | nil => cases h; exact hp
  | cons b bs ih =>
    cases hb : p.pushByte cfg b with
    | error e => simp [Parser.pushBuf, hb] at h
    | ok r =>
      have hr := hstep b p r hp hb
      simp only [Parser.pushBuf, hb] at h
      split at h
      · cases h; exact hr
      · exact ih hr h

/-- What a command that answers a next state can do: the bytes pushed, a reset or a delivered frame write the parser;
every other command leaves it, and its decoder idle where it has used it. Each adds one result. -/
inductive CommandEffect (s : State) : Instr → State → Prop
  | pushByte {b : Byte} {q : Parser} (h : s.parser.pushByte s.params b = .ok q) :
    CommandEffect s (.pushByte b) { s with parser := q, results := s.results ++ [.status q.status] }
  | pushBuf {bs : List Byte} {k errors : Nat} {q : Parser}
      (h : s.parser.pushBuf s.params bs 0 0 = .ok (k, errors, q)) :
    CommandEffect s (.pushBuf bs) { s with parser := q, results := s.results ++ [.pushed k errors q.status] }
  | reset :
    CommandEffect s .reset
      { s with parser := Parser.clear s.draws, draws := s.draws + 1,
               results := s.results ++ [.status (Parser.clear s.draws).status] }
  | deliver (h : s.parser.frameReady = true) :
    CommandEffect s .getFrame
      { s with parser := { s.parser with frameReady := !s.params.getFrameConsumes },
               framesOut := s.framesOut ++ [s.parser.fr],
               results := s.results ++ [.frame (frameLayout s.parser.fr)] }
  | respond {i : Instr} (r : Result) (d : Drd) (mark : Bool) (hd : d = s.drd ∨ d = Drd.idle) :
    CommandEffect s i { s with drd := d, results := s.results ++ [r], refusalMark := mark }

/-- The only effect of an answer is its result (20_memory.md R59). -/
theorem commandEffect_answer {i : Instr} {s t : State} {r : Result} (h : answer r s = .next t) :
    CommandEffect s i t := by
  cases h
  exact .respond r s.drd s.refusalMark (.inl rfl)

/-- A command of the command space has one of these effects. -/
theorem exec_commandEffect {i : Instr} {s t : State} (hc : i.format = .cmd8) (h : exec i s = .next t) :
    CommandEffect s i t := by
  cases i with
  | pushByte b =>
    obtain ⟨q, hq, rfl⟩ := execPushByte_next h
    exact .pushByte hq
  | pushBuf bs =>
    obtain ⟨k, errors, q, hq, rfl⟩ := execPushBuf_next h
    exact .pushBuf hq
  | getFrame =>
    cases hr : s.parser.frameReady with
    | true => cases (execGetFrame_ready hr).symm.trans h; exact .deliver hr
    | false => cases (execGetFrame_empty hr).symm.trans h; exact .respond _ _ _ (.inl rfl)
  | reset => cases h; exact .reset
  | decodePayload ci data =>
    obtain ⟨r, hr⟩ := execDecodePayload_next ci data s
    cases hr.symm.trans h
    exact .respond _ _ _ (.inr rfl)
  | decodeRecords data => cases h; exact .respond _ _ _ (.inr rfl)
  | illegalCommand code => cases h; exact .respond _ _ _ (.inl rfl)
  | getState | checksum | validateMarkers | encodeFrame | encodePayload => exact commandEffect_answer h
  | _ => cases hc

/-! ### The invariant (10_state.md R31, R32) -/

/-- Clearing or keeping FRAME_READY of a retained frame keeps the invariant (41_parser.md R141). -/
theorem Parser.Inv.deliver {p : Parser} (hi : p.Inv) (hr : p.frameReady = true) (ready : Bool) :
    { p with frameReady := ready }.Inv := by
  obtain ⟨hstart, hframe, hlegal, herr⟩ := hi
  have hs := hstart hr
  refine ⟨fun _ => hs, ?_, fun _ => hlegal hr, fun he => ?_⟩
  · simp [Parser.FrameInv, hs]
  · obtain ⟨-, hnone, -⟩ := herr he
    exact absurd (hr.symm.trans hnone) nofun

/-- Every command keeps the machine's invariant. -/
theorem CommandEffect.inv {i : Instr} {s t : State} (he : CommandEffect s i t) (hi : s.Inv) : t.Inv := by
  obtain ⟨hp, hd, h2⟩ := hi
  cases he with
  | pushByte h => exact ⟨hp.pushByte _ _ h, hd, Parser.pushByte_expectStart2 h⟩
  | pushBuf h =>
    exact ⟨Parser.pushBuf_keeps (fun b _ _ hi => hi.pushByte _ b) hp h, hd,
      Parser.pushBuf_keeps (P := fun q => q.st = .expectStart2 → s.params.longStart2 = true)
        (fun _ _ _ _ => Parser.pushByte_expectStart2) h2 h⟩
  | reset => exact ⟨Parser.clear_inv _, hd, nofun⟩
  | deliver h => exact ⟨hp.deliver h _, hd, h2⟩
  | respond r d mark hd' => exact ⟨hp, hd'.elim (·.trans hd) id, h2⟩

/-- Settles O9: a step keeps the state or has the effect of one command. -/
theorem stepKeepsTheInvariant : Obligations.StepKeepsTheInvariant := by
  intro s t hi h
  obtain ⟨-, rfl⟩ | ⟨p, ps, i, -, hd, he⟩ := step_next h
  · exact hi
  · have hi' : { s with pending := ps }.Inv := hi
    exact (exec_commandEffect (decode_format hd) he).inv hi'

/-! ### Which commands write the parser (10_state.md R33) -/

/-- No command writes the parameters or the waiting commands, and each adds one result (20_memory.md R65). -/
theorem CommandEffect.host_side {i : Instr} {s t : State} (he : CommandEffect s i t) :
    t.params = s.params ∧ t.pending = s.pending ∧ ∃ r, t.results = s.results ++ [r] := by
  cases he <;> exact ⟨rfl, rfl, _, rfl⟩

/-- Only pushed bytes and RESET write a register other than FRAME_READY, which a delivered frame clears. -/
theorem CommandEffect.parser_kept {i : Instr} {s t : State} (he : CommandEffect s i t)
    (hb : ∀ b, i ≠ .pushByte b) (hbs : ∀ bs, i ≠ .pushBuf bs) (hr : i ≠ .reset) :
    { t.parser with frameReady := s.parser.frameReady } = s.parser ∧
      (i ≠ .getFrame → t.parser.frameReady = s.parser.frameReady) := by
  cases he with
  | pushByte h => exact absurd rfl (hb _)
  | pushBuf h => exact absurd rfl (hbs _)
  | reset => exact absurd rfl hr
  | deliver h => exact ⟨rfl, fun hg => absurd rfl hg⟩
  | respond => exact ⟨rfl, fun _ => rfl⟩

/-- Only RESET takes a recorded cause away (10_state.md R28). -/
theorem CommandEffect.lastErr_cleared {i : Instr} {s t : State} (he : CommandEffect s i t)
    (hs : s.parser.lastErr ≠ none) (ht : t.parser.lastErr = none) : i = .reset := by
  cases he with
  | pushByte h => exact absurd ht (Parser.pushByte_lastErr hs h)
  | pushBuf h =>
    exact absurd ht
      (Parser.pushBuf_keeps (P := fun q => q.lastErr ≠ none) (fun _ _ _ => Parser.pushByte_lastErr) hs h)
  | reset => rfl
  | deliver | respond => exact absurd ht hs

/-- Settles O58, from the effects a command can have. -/
theorem onlyParserCommandsWriteTheParser : Obligations.OnlyParserCommandsWriteTheParser := by
  intro i s t hc h
  have he := exec_commandEffect hc h
  obtain ⟨hparams, hpending, hresults⟩ := he.host_side
  exact ⟨hparams, hpending, hresults, he.parser_kept, he.lastErr_cleared⟩

end Sys2Proof.Machine
end

section
/-! PROOFS. That the registers unspecified at reset are never seen (10_state.md R36): two parsers that agree on the live
registers answer every byte alike, and so do two machines every command. -/

namespace Sys2Proof.Machine

open Sys2Proof.Config

/-! ### Two parsers that agree on the live registers (70_reset_and_hazards.md R340) -/

/-- A frame in progress that is no short one is a control or long one (W_KIND, R21). -/
theorem Kind.eq_long {k : Kind} (h : k ≠ .short) : k = .long := by
  cases k with
  | short => exact absurd rfl h
  | long => rfl

section
variable {p q : Parser}

/-- STATUS reads live registers only: W_REM in EXPECT_DATA alone (R25). -/
theorem Parser.SameLive.status (h : p.SameLive q) : p.status = q.status := by
  obtain ⟨hs, hr, he, hl, -, hlive⟩ := h
  have hrem : p.remaining = q.remaining := by
    unfold Parser.remaining
    rw [← hs]
    split
    · rename_i hd
      simp only [hd] at hlive
      obtain ⟨-, -, -, -, -, hrem, -⟩ := hlive
      exact hrem
    · rfl
  rw [Parser.status, Parser.status, hs, hr, he, hl, hrem]

theorem Parser.SameLive.prologue (h : p.SameLive q) : p.prologue.SameLive q.prologue := by
  obtain ⟨hs, -, -, hl, -, hlive⟩ := h
  exact ⟨hs, rfl, rfl, hl, nofun, hlive⟩

theorem Parser.SameLive.recordError (h : p.SameLive q) (cause : FramingCause) :
    (p.recordError cause).SameLive (q.recordError cause) := by
  obtain ⟨-, hr, -, -, hf, -⟩ := h
  exact ⟨rfl, hr, rfl, rfl, hf, trivial⟩

theorem Parser.SameLive.completeFrame (h : p.SameLive q) {f g : Frame} (hfg : f = g) :
    (p.completeFrame f).SameLive (q.completeFrame g) := by
  obtain ⟨-, -, he, hl, -, -⟩ := h
  exact ⟨rfl, rfl, he, hl, fun _ => hfg, trivial⟩

/-! The arms, each on two parsers that agree on the registers live in its state. -/

theorem Parser.SameLive.armStart (h : p.SameLive q) (b : Byte) : (p.armStart b).SameLive (q.armStart b) := by
  unfold Parser.armStart
  split_ifs
  · exact h.completeFrame rfl
  · obtain ⟨-, hr, he, hl, hf, -⟩ := h
    exact ⟨rfl, hr, he, hl, hf, rfl, nofun⟩
  · obtain ⟨-, hr, he, hl, hf, -⟩ := h
    exact ⟨rfl, hr, he, hl, hf, rfl⟩
  · exact h.recordError _

theorem Parser.SameLive.armLength (h : p.SameLive q) (hs : p.st = .expectLength) (b : Byte) :
    (p.armLength b).SameLive (q.armLength b) := by
  unfold Parser.armLength
  split_ifs
  · exact h.recordError _
  · obtain ⟨-, hr, he, hl, hf, hlive⟩ := h
    simp only [hs] at hlive
    exact ⟨rfl, hr, he, hl, hf, hlive, rfl⟩

theorem Parser.SameLive.armLengthRepeat (h : p.SameLive q) (hs : p.st = .expectLengthRepeat) (cfg : Params)
    (b : Byte) : (p.armLengthRepeat cfg b).SameLive (q.armLengthRepeat cfg b) := by
  obtain ⟨-, hr, he, hl, hf, hlive⟩ := id h
  simp only [hs] at hlive
  obtain ⟨hk, hlen⟩ := hlive
  unfold Parser.armLengthRepeat
  rw [← hlen]
  split_ifs
  · exact h.recordError _
  · exact ⟨rfl, hr, he, hl, hf, hk, rfl⟩
  · exact ⟨rfl, hr, he, hl, hf, hk, fun _ => rfl⟩

theorem Parser.SameLive.armStart2 (h : p.SameLive q) (hs : p.st = .expectStart2) (b : Byte) :
    (p.armStart2 b).SameLive (q.armStart2 b) := by
  unfold Parser.armStart2
  split_ifs
  · exact h.recordError _
  · obtain ⟨-, hr, he, hl, hf, hlive⟩ := h
    simp only [hs] at hlive
    obtain ⟨hk, hlen⟩ := hlive
    exact ⟨rfl, hr, he, hl, hf, hk, fun _ => hlen⟩

theorem Parser.SameLive.armControl (h : p.SameLive q) (hs : p.st = .expectControl) (b : Byte) :
    (p.armControl b).SameLive (q.armControl b) := by
  obtain ⟨-, hr, he, hl, hf, hlive⟩ := h
  simp only [hs] at hlive
  obtain ⟨hk, hlen⟩ := hlive
  exact ⟨rfl, hr, he, hl, hf, hk, hlen, rfl, rfl⟩

theorem Parser.SameLive.armAddress (h : p.SameLive q) (hs : p.st = .expectAddress) (b : Byte) :
    (p.armAddress b).SameLive (q.armAddress b) := by
  obtain ⟨-, hr, he, hl, hf, hlive⟩ := h
  simp only [hs] at hlive
  obtain ⟨hk, hlen, hc, hsum⟩ := hlive
  unfold Parser.armAddress
  rw [← hk, ← hsum]
  split_ifs with hshort
  · exact ⟨rfl, hr, he, hl, hf, rfl, hc, rfl, rfl, fun hlong => by simp [hshort] at hlong⟩
  · have hlong : p.wKind = .long := Kind.eq_long hshort
    exact ⟨rfl, hr, he, hl, hf, rfl, hlen hlong, hc, rfl, rfl⟩

theorem Parser.SameLive.armControlInfo (h : p.SameLive q) (hs : p.st = .expectControlInfo) (b : Byte) :
    (p.armControlInfo b).SameLive (q.armControlInfo b) := by
  obtain ⟨-, hr, he, hl, hf, hlive⟩ := h
  simp only [hs] at hlive
  obtain ⟨hk, hlen, hc, ha, hsum⟩ := hlive
  unfold Parser.armControlInfo
  rw [← hlen, ← hsum]
  split_ifs
  · exact ⟨rfl, hr, he, hl, hf, hk, hc, ha, rfl, fun _ => ⟨rfl, rfl, rfl⟩⟩
  · exact ⟨rfl, hr, he, hl, hf, hk, rfl, hc, ha, rfl, rfl, rfl, rfl, rfl⟩

/-- A byte written at W_IDX follows the data bytes so far. -/
theorem Parser.dataSoFar_armData {p' : Parser} {b : Byte} (h : p.armData b = .ok p') :
    p'.dataSoFar = p.dataSoFar ++ [b] := by
  have hx := Parser.armData_idx h
  cases (Parser.armData_ok b p hx).symm.trans h
  have hidx := toNat_add_one p.wIdx (by omega)
  simp only [Parser.dataSoFar, hidx, buf_take_set]

/-- Two parsers with the same W_IDX, an index of BUF, both take the data byte. -/
theorem Parser.SameLive.armData (h : p.SameLive q) (hs : p.st = .expectData) (hx : p.wIdx.toNat < 252) (b : Byte) :
    ∃ p' q', p.armData b = .ok p' ∧ q.armData b = .ok q' ∧ p'.SameLive q' := by
  obtain ⟨-, hr, he, hl, hf, hlive⟩ := h
  simp only [hs] at hlive
  obtain ⟨hk, hlen, hc, ha, hci, hrem, hidx, hsum, hdata⟩ := hlive
  have hp := Parser.armData_ok b p hx
  have hq := Parser.armData_ok b q (hidx ▸ hx)
  refine ⟨_, _, hp, hq, ?_⟩
  have hdata' := Parser.dataSoFar_armData hp
  rw [hdata, ← Parser.dataSoFar_armData hq] at hdata'
  rw [← hrem]
  split_ifs
  · exact ⟨rfl, hr, he, hl, hf, hk, hc, ha, congrArg (· + b) hsum, fun _ => ⟨hlen, hci, hdata'⟩⟩
  · exact ⟨rfl, hr, he, hl, hf, hk, hlen, hc, ha, hci, rfl, congrArg (· + 1) hidx, congrArg (· + b) hsum, hdata'⟩

theorem Parser.SameLive.armChecksum (h : p.SameLive q) (hs : p.st = .expectChecksum) (b : Byte) :
    (p.armChecksum b).SameLive (q.armChecksum b) := by
  obtain ⟨-, hr, he, hl, hf, hlive⟩ := id h
  simp only [hs] at hlive
  obtain ⟨hk, hc, ha, hsum, hlong⟩ := hlive
  unfold Parser.armChecksum
  rw [← hsum]
  split_ifs
  · exact h.recordError _
  · exact ⟨rfl, hr, he, hl, hf, hk, hc, ha, hlong⟩

theorem Parser.Inv.frame (hi : p.Inv) : p.FrameInv := by
  obtain ⟨-, hf, -⟩ := hi
  exact hf

/-- In EXPECT_STOP every data byte of a long frame has been taken (10_state.md R32). -/
theorem Parser.FrameInv.frameData_eq (hi : p.FrameInv) (hs : p.st = .expectStop) (hk : p.wKind = .long) :
    p.frameData = p.dataSoFar := by
  simp only [Parser.FrameInv, hs, hk] at hi
  obtain ⟨hshort, -⟩ | ⟨-, -, hidx, -⟩ := hi
  · cases hshort
  · rw [Parser.frameData, Parser.dataSoFar, hidx]

/-- The frame a stop byte completes is made of live registers. -/
theorem Parser.SameLive.pendingFrame (h : p.SameLive q) (hs : p.st = .expectStop) (hp : p.FrameInv)
    (hq : q.FrameInv) : p.pendingFrame = q.pendingFrame := by
  obtain ⟨hst, -, -, -, -, hlive⟩ := h
  simp only [hs] at hlive
  obtain ⟨hk, hc, ha, hlong⟩ := hlive
  unfold Parser.pendingFrame
  rw [← hk, hc, ha]
  by_cases hshort : p.wKind = .short
  · rw [if_pos hshort, if_pos hshort]
  · have hkind : p.wKind = .long := Kind.eq_long hshort
    obtain ⟨hlen, hci, hdata⟩ := hlong hkind
    rw [hp.frameData_eq hs hkind, hq.frameData_eq (hst ▸ hs) (hk ▸ hkind), hlen, hci, hdata]

theorem Parser.SameLive.armStop (h : p.SameLive q) (hs : p.st = .expectStop) (hp : p.FrameInv)
    (hq : q.FrameInv) (b : Byte) : (p.armStop b).SameLive (q.armStop b) := by
  unfold Parser.armStop
  split_ifs
  · exact h.recordError _
  · exact h.completeFrame (h.pendingFrame hs hp hq)

/-- PUSH_BYTE completes on both parsers, which agree again. -/
theorem Parser.SameLive.pushByte (h : p.SameLive q) (hp : p.Inv) (hq : q.Inv) (cfg : Params) (b : Byte) :
    ∃ p' q', p.pushByte cfg b = .ok p' ∧ q.pushByte cfg b = .ok q' ∧ p'.SameLive q' := by
  obtain ⟨hst, -⟩ := id h
  have h' := h.prologue
  cases hs : p.st with
  | expectStart =>
    exact ⟨_, _, p.pushByte_start cfg b hs, q.pushByte_start cfg b (hst ▸ hs), h'.armStart b⟩
  | expectLength =>
    exact ⟨_, _, p.pushByte_length cfg b hs, q.pushByte_length cfg b (hst ▸ hs), h'.armLength hs b⟩
  | expectLengthRepeat =>
    exact ⟨_, _, p.pushByte_lengthRepeat cfg b hs, q.pushByte_lengthRepeat cfg b (hst ▸ hs),
      h'.armLengthRepeat hs cfg b⟩
  | expectStart2 =>
    exact ⟨_, _, p.pushByte_start2 cfg b hs, q.pushByte_start2 cfg b (hst ▸ hs), h'.armStart2 hs b⟩
  | expectControl =>
    exact ⟨_, _, p.pushByte_control cfg b hs, q.pushByte_control cfg b (hst ▸ hs), h'.armControl hs b⟩
  | expectAddress =>
    exact ⟨_, _, p.pushByte_address cfg b hs, q.pushByte_address cfg b (hst ▸ hs), h'.armAddress hs b⟩
  | expectControlInfo =>
    exact ⟨_, _, p.pushByte_controlInfo cfg b hs, q.pushByte_controlInfo cfg b (hst ▸ hs),
      h'.armControlInfo hs b⟩
  | expectData =>
    rw [p.pushByte_data cfg b hs, q.pushByte_data cfg b (hst ▸ hs)]
    exact h'.armData hs (hp.idx_lt hs) b
  | expectChecksum =>
    exact ⟨_, _, p.pushByte_checksum cfg b hs, q.pushByte_checksum cfg b (hst ▸ hs), h'.armChecksum hs b⟩
  | expectStop =>
    exact ⟨_, _, p.pushByte_stop cfg b hs, q.pushByte_stop cfg b (hst ▸ hs),
      h'.armStop hs hp.frame hq.frame b⟩

/-- PUSH_BUF stops at the same byte with the same error count on both parsers. -/
theorem Parser.SameLive.pushBuf (h : p.SameLive q) (hp : p.Inv) (hq : q.Inv) (cfg : Params) (bs : List Byte)
    (k errors : Nat) :
    ∃ k' errors' p' q', p.pushBuf cfg bs k errors = .ok (k', errors', p') ∧
      q.pushBuf cfg bs k errors = .ok (k', errors', q') ∧ p'.SameLive q' := by
  induction bs generalizing p q k errors with
  | nil => exact ⟨k, errors, p, q, rfl, rfl, h⟩
  | cons b bs ih =>
    obtain ⟨p', q', hp', hq', h'⟩ := h.pushByte hp hq cfg b
    obtain ⟨-, hr, he, -⟩ := id h'
    simp only [Parser.pushBuf, hp', hq', ← hr, ← he]
    split_ifs
    · exact ⟨_, _, p', q', rfl, rfl, h'⟩
    · exact ih h' (hp.pushByte cfg b hp') (hq.pushByte cfg b hq') _ _

end

/-! ### Two machines that the host cannot tell apart -/

section
variable {s t : State}

/-- The two machines answer alike: each a next state, and these agree again. -/
def SameOutcome (x y : Host.Outcome State Fault Refusal) : Prop :=
  ∃ s' t', x = .next s' ∧ y = .next t' ∧ s'.SameSeen t'

theorem State.SameSeen.answer (h : s.SameSeen t) {r u : Result} (hr : r = u) :
    SameOutcome (answer r s) (answer u t) := by
  obtain ⟨hp, hd, hc, hq, hres, hf, hm⟩ := h
  exact ⟨_, _, rfl, rfl, hp, hd, hc, hq, by simp [hres, hr], hf, hm⟩

theorem State.SameSeen.endDecode (h : s.SameSeen t) : s.endDecode.SameSeen t.endDecode := by
  obtain ⟨hp, -, hrest⟩ := h
  exact ⟨hp, rfl, hrest⟩

theorem State.SameSeen.withParser (h : s.SameSeen t) {p q : Parser} (hpq : p.SameLive q) :
    { s with parser := p }.SameSeen { t with parser := q } := by
  obtain ⟨-, hrest⟩ := h
  exact ⟨hpq, hrest⟩

theorem State.SameSeen.decodeBlock_drd (h : s.SameSeen t) (data : List Byte) (off : Nat) :
    (s.decodeBlock data off).drd = (t.decodeBlock data off).drd := by
  obtain ⟨-, -, hc, -⟩ := h
  simp [hc]

theorem execPushByte_sameOutcome (h : s.SameSeen t) (hs : s.parser.Inv) (ht : t.parser.Inv) (b : Byte) :
    SameOutcome (execPushByte b s) (execPushByte b t) := by
  obtain ⟨hp, -, hc, -⟩ := id h
  obtain ⟨p, q, hpo, hqo, hpq⟩ := hp.pushByte hs ht s.params b
  rw [hc] at hqo
  rw [execPushByte, execPushByte, hpo, hqo]
  exact (h.withParser hpq).answer (congrArg Result.status hpq.status)

theorem execPushBuf_sameOutcome (h : s.SameSeen t) (hs : s.parser.Inv) (ht : t.parser.Inv) (bs : List Byte) :
    SameOutcome (execPushBuf bs s) (execPushBuf bs t) := by
  obtain ⟨hp, -, hc, -⟩ := id h
  obtain ⟨k, errors, p, q, hpo, hqo, hpq⟩ := hp.pushBuf hs ht s.params bs 0 0
  rw [hc] at hqo
  rw [execPushBuf, execPushBuf, hpo, hqo]
  exact (h.withParser hpq).answer (congrArg (Result.pushed k errors) hpq.status)

/-- FR is delivered only where it is live. -/
theorem execGetFrame_sameOutcome (h : s.SameSeen t) : SameOutcome (execGetFrame s) (execGetFrame t) := by
  obtain ⟨⟨hst, hr, he, hl, hf, hlive⟩, hd, hc, hq, hres, hfo, hm⟩ := id h
  cases hready : s.parser.frameReady with
  | false =>
    rw [execGetFrame_empty hready, execGetFrame_empty (hr ▸ hready)]
    exact h.answer rfl
  | true =>
    have hfr := hf hready
    refine ⟨_, _, execGetFrame_ready hready, execGetFrame_ready (hr ▸ hready),
      ⟨hst, ?_, he, hl, fun _ => hfr, hlive⟩, hd, hc, hq, ?_, ?_, hm⟩
    · simp [hc]
    · simp [hres, hfr]
    · simp [hfo, hfr]

/-- The free values of RESET are dead: ST is EXPECT_START and no frame is retained. -/
theorem execReset_sameOutcome (h : s.SameSeen t) : SameOutcome (execReset s) (execReset t) := by
  have hclear : (Parser.clear s.draws).SameLive (Parser.clear t.draws) := ⟨rfl, rfl, rfl, rfl, nofun, trivial⟩
  have h' : { s with parser := Parser.clear s.draws, draws := s.draws + 1 }.SameSeen
      { t with parser := Parser.clear t.draws, draws := t.draws + 1 } := h.withParser hclear
  exact h'.answer (congrArg Result.status hclear.status)

theorem execDecodePayload_sameOutcome (h : s.SameSeen t) (ci : Byte) (data : List Byte) :
    SameOutcome (execDecodePayload ci data s) (execDecodePayload ci data t) := by
  obtain ⟨-, -, hc, -⟩ := id h
  unfold execDecodePayload
  rw [← hc]
  cases headerKindOf s.params ci with
  | none => exact h.endDecode.answer rfl
  | some kind =>
    dsimp only
    split_ifs
    · exact h.endDecode.answer rfl
    · exact h.endDecode.answer (by rw [h.decodeBlock_drd])

/-- Every command answers alike on two machines that the host cannot tell apart. -/
theorem exec_sameOutcome (h : s.SameSeen t) (hs : s.parser.Inv) (ht : t.parser.Inv) {i : Instr}
    (hi : i.format = .cmd8) : SameOutcome (exec i s) (exec i t) := by
  obtain ⟨hp, hd, hc, hq, hres, hf, hm⟩ := id h
  cases i with
  | pushByte b => exact execPushByte_sameOutcome h hs ht b
  | pushBuf bs => exact execPushBuf_sameOutcome h hs ht bs
  | getFrame => exact execGetFrame_sameOutcome h
  | getState => exact h.answer (congrArg Result.status hp.status)
  | reset => exact execReset_sameOutcome h
  | checksum bs => exact h.answer rfl
  | validateMarkers start stop lenA lenB => exact h.answer rfl
  | encodeFrame operand => exact h.answer (by rw [hc])
  | encodePayload r => exact h.answer (by rw [hc])
  | decodePayload ci data => exact execDecodePayload_sameOutcome h ci data
  | decodeRecords data => exact h.endDecode.answer (by rw [h.decodeBlock_drd])
  | illegalCommand code => exact ⟨_, _, rfl, rfl, hp, hd, hc, hq, by simp [hres], hf, rfl⟩
  | _ => cases hi

/-- Settles O60: both machines hold the same next command, and each command answers alike on them. -/
theorem unspecifiedRegistersAreNeverSeen : Obligations.UnspecifiedRegistersAreNeverSeen := by
  rintro s t ⟨hs, -⟩ ⟨ht, -⟩ h
  obtain ⟨hp, hd, hc, hq, hrest⟩ := id h
  cases hps : s.pending with
  | nil =>
    rw [step_of_pending_nil hps, step_of_pending_nil (hq ▸ hps)]
    exact h
  | cons p ps =>
    cases hdec : decode p with
    | error e => simp [step, State.takeCommand, hps, ← hq, hdec]
    | ok i =>
      have h' : { s with pending := ps }.SameSeen { t with pending := ps } := ⟨hp, hd, hc, rfl, hrest⟩
      obtain ⟨s', t', hs', ht', h''⟩ := exec_sameOutcome h' hs ht (decode_format hdec)
      rw [step_of_pending_cons hps hdec, step_of_pending_cons (hq ▸ hps) hdec, hs', ht']
      exact h''

end

end Sys2Proof.Machine
end

section
/-! PROOFS. The statements of 20_memory.md: a data byte for an index that BUF does not have (R51), and the commands that
change no state (R59). -/

namespace Sys2Proof.Machine

open Sys2Proof.Claims

/-! ### An index that BUF does not have (R51) -/

theorem Parser.armData_fault {p : Parser} (b : Byte) (h : 252 ≤ p.wIdx.toNat) : p.armData b = .error .bufIndex :=
  dif_neg (Nat.not_lt.mpr h)

theorem whenExpecting_fault {sel : PState} {f : Parser → Except Fault Parser} {s : State} {e : Fault}
    (hs : s.parser.st = sel) (hf : f s.parser = .error e) : whenExpecting sel f s = .fault e := by
  simp [whenExpecting, hs, hf]

theorem execPushByte_fault {b : Byte} {s : State} {e : Fault} (h : s.parser.pushByte s.params b = .error e) :
    execPushByte b s = .fault e := by
  simp [execPushByte, h]

/-- Settles O21: PUSH_BYTE's prologue leaves W_IDX, so the arm that it runs faults as the arm alone does. -/
theorem dataByteOutsideBufFaults : Obligations.DataByteOutsideBufFaults := by
  intro s b hs hx
  have hpush : s.parser.pushByte s.params b = .error .bufIndex := by
    rw [Parser.pushByte_data _ _ _ hs]
    exact Parser.armData_fault b hx
  exact ⟨whenExpecting_fault hs (Parser.armData_fault b hx), execPushByte_fault hpush⟩

/-! ### The commands that change no state (R59) -/

/-- `i` answers `r` and changes nothing else in `s`, whatever has been answered before. -/
def AlwaysAnswers (i : Instr) (s : State) (r : Result) : Prop :=
  ∀ past : List Result, Answers i { s with results := past } r

/-- A command that always answers `r` answers it again after it has answered it. -/
theorem AlwaysAnswers.twice {i : Instr} {s : State} {r : Result} (h : AlwaysAnswers i s r) :
    Answers i s r ∧ Answers i { s with results := s.results ++ [r] } r :=
  ⟨h s.results, h (s.results ++ [r])⟩

/-- Between commands the decoder is idle already, so ending a DECODE command changes nothing (10_state.md R20). -/
theorem State.endDecode_of_idle {s : State} (h : s.drd = Drd.idle) : s.endDecode = s := by
  simp [State.endDecode, ← h]

/-- DECODE_PAYLOAD reads its operands and the parameters alone, in each of its cases (43_records.md R200, R204,
R205). -/
theorem decodePayload_alwaysAnswers (ci : Byte) (data : List Byte) (s : State) :
    ∃ r, AlwaysAnswers (.decodePayload ci data) s.endDecode r := by
  simp only [AlwaysAnswers, Answers, exec, execDecodePayload, State.endDecode_params]
  cases headerKindOf s.params ci with
  | none => exact ⟨.response (udr s.params ci .absent [] data [(.unsupportedCi, 0)]), fun _ => rfl⟩
  | some kind =>
    by_cases hl : data.length < kind.length
    · simp only [if_pos hl]
      exact ⟨.response (udr s.params ci .absent [] data [(.headerTruncated, 0)]), fun _ => rfl⟩
    · simp only [if_neg hl]
      exact ⟨.response (udr s.params ci (parseHeader kind (data.take kind.length))
        (Drd.decodeFrom s.params data kind.length).items [] (Drd.decodeFrom s.params data kind.length).errors),
        fun _ => rfl⟩

/-- So does DECODE_RECORDS (43_records.md R209). -/
theorem decodeRecords_alwaysAnswers (data : List Byte) (s : State) :
    AlwaysAnswers (.decodeRecords data) s.endDecode
      (.records (recordList (Drd.decodeFrom s.params data 0).items (Drd.decodeFrom s.params data 0).errors)) :=
  fun _ => rfl

/-- Settles O59: each of the seven commands answers a result that does not depend on the results before it. -/
theorem pureCommandsAreIdempotent : Obligations.PureCommandsAreIdempotent := by
  intro i s hd hi
  suffices h : ∃ r, AlwaysAnswers i s r from h.imp fun _ => AlwaysAnswers.twice
  rw [← State.endDecode_of_idle hd]
  obtain rfl | ⟨bs, rfl⟩ | ⟨start, stop, lenA, lenB, rfl⟩ | ⟨operand, rfl⟩ | ⟨r, rfl⟩ |
    ⟨ci, data, rfl⟩ | ⟨data, rfl⟩ := hi
  · exact ⟨.status s.parser.status, fun _ => rfl⟩
  · exact ⟨.sum (byteSum bs), fun _ => rfl⟩
  · exact ⟨.markers (validateMarkers start stop lenA lenB), fun _ => rfl⟩
  · exact ⟨encodingResult (encodeOperand s.params operand), fun _ => rfl⟩
  · exact ⟨encodingResult (encodeResponse s.params r), fun _ => rfl⟩
  · exact decodePayload_alwaysAnswers ci data s
  · exact ⟨_, decodeRecords_alwaysAnswers data s⟩

end Sys2Proof.Machine
end

section
/-! PROOFS. The statements of 30_encoding.md: each space's decoder and the encoder are inverse to each other (R70, R72,
R74, R81, R87 to R93), the reserved command codes (R72), the named C values (R81), and the metadata of a DIFE chain
(R91). -/

namespace Sys2Proof.Machine

open Sys2Proof.Claims

/-! ### The fields of a row byte, put together again -/

/-- A DIF byte is its head and its data field (R87). -/
theorem difByte_of_fields (x : Byte) : (difHeadOf x).byte (dataField x) = x := by
  revert x
  decide

/-- A DIFE byte is its four fields (R90). -/
theorem difeByte_of_fields (x : Byte) :
    difeByte (x.getLsbD 7) (x.getLsbD 6) (x.extractLsb' 4 2) (x.extractLsb' 0 4) = x := by
  revert x
  decide

/-- An LVAR byte, and a reserved DIF, is its two nibbles (R89, R93). -/
theorem lvarByte_of_nibbles (x : Byte) : lvarByte (x.extractLsb' 4 4) (x.extractLsb' 0 4) = x := by
  revert x
  decide

/-! ### Reserved command codes (R72) -/

/-- A code that R70 does not list is read as the illegal command of that code, its operands unread. -/
theorem decode_of_not_command {p : Packet} (h : isCommandCode p.code = false) :
    decode p = .ok (.illegalCommand p.code) := by
  change decodeCommand p = _
  unfold decodeCommand
  split
  case h_12 => simp [h]
  all_goals simp_all [isCommandCode]

/-- No code in the ranges of R72 is a code of R70. -/
theorem not_isCommandCode_of_reserved (code : Byte)
    (h : code.toNat = 0x00 ∨ (0x06 ≤ code.toNat ∧ code.toNat ≤ 0x0F) ∨ (0x12 ≤ code.toNat ∧ code.toNat ≤ 0x1F) ∨
      (0x22 ≤ code.toNat ∧ code.toNat ≤ 0x2F) ∨ 0x32 ≤ code.toNat) : isCommandCode code = false := by
  revert code
  decide

/-- Settles O4: the code is none of R70's, and the illegal command answers without a change to the block. -/
theorem reservedCodesAnswerIllegalCommand : Obligations.ReservedCodesAnswerIllegalCommand :=
  fun p _ hp => ⟨decode_of_not_command (not_isCommandCode_of_reserved p.code hp), rfl⟩

/-! ### Decoding an encoding -/

/-- Each DIF with a data field is read back from its byte (R87, R88). -/
theorem decodeDif_difByte (h : DifHead) : ∀ row ∈ dataDifRows h, decodeDif (h.byte row.2) = row.1 := by
  obtain ⟨ext, lsb, function⟩ := h
  revert ext lsb function
  decide

/-- A low nibble 0xF under any other high nibble is a reserved DIF (R89). -/
theorem decodeDif_reserved {high : BitVec 4} (hw : (Instr.difReserved high).WellFormed) :
    decodeDif (lvarByte high 0xF) = .difReserved high := by
  revert high
  decide

/-- The fields of a DIFE are read back from its byte (R90). -/
theorem decodeDife_difeByte (ext subunit : Bool) (tariff : BitVec 2) (storage : BitVec 4) :
    decodeDife (difeByte ext subunit tariff storage) = .dife ext subunit tariff storage := by
  revert ext subunit tariff storage
  decide

/-- Each VIF row is read back from its byte: the structural values are no primary ones (R92). -/
theorem decodeVif_vifByte (ext : Bool) (value : BitVec 7) :
    ∀ row ∈ (Instr.vifPlainText ext, 0x7C#7) :: plainVifRows ext value, decodeVif (vifByte ext row.2) = row.1 := by
  revert ext value
  decide

/-- The fields of a VIFE are read back from its byte (R92). -/
theorem decodeVife_vifByte (ext : Bool) (value : BitVec 7) : decodeVife (vifByte ext value) = .vife ext value := by
  change Instr.vife (extBit (vifByte ext value)) (vifValue (vifByte ext value)) = _
  rw [extBit_vifByte, vifValue_vifByte]

/-! The LVAR rows: each byte is in one of R93's ranges, and these do not meet. -/

theorem lowNibble_lvarByte (high low : BitVec 4) : (lvarByte high low).extractLsb' 0 4 = low := by
  revert high low
  decide

theorem decodeLvar_text {lv : Byte} (h : lv.toNat ≤ 0xBF) : decodeLvar lv = .lvarText lv := if_pos h

theorem decodeLvar_bcdPos {k : BitVec 4} (h : k.toNat ≤ 9) : decodeLvar (lvarByte 0xC k) = .lvarBcdPos k := by
  obtain ⟨hlo, hhi, -⟩ := lvarByte_bcdPos k h
  simp (disch := omega) only [decodeLvar, if_neg, if_pos, lowNibble_lvarByte]

theorem decodeLvar_bcdNeg {k : BitVec 4} (h : k.toNat ≤ 9) : decodeLvar (lvarByte 0xD k) = .lvarBcdNeg k := by
  obtain ⟨hlo, hhi, -⟩ := lvarByte_bcdNeg k h
  simp (disch := omega) only [decodeLvar, if_neg, if_pos, lowNibble_lvarByte]

theorem decodeLvar_binary (k : BitVec 4) : decodeLvar (lvarByte 0xE k) = .lvarBinary k := by
  obtain ⟨hlo, hhi, -⟩ := lvarByte_binary k
  simp (disch := omega) only [decodeLvar, if_neg, if_pos, lowNibble_lvarByte]

theorem isReservedLvar_iff (lv : Byte) : isReservedLvar lv = true ↔
    (0xCA ≤ lv.toNat ∧ lv.toNat ≤ 0xCF) ∨ (0xDA ≤ lv.toNat ∧ lv.toNat ≤ 0xDF) ∨ 0xF0 ≤ lv.toNat := by
  simp [isReservedLvar, or_assoc]

theorem decodeLvar_reserved {lv : Byte} (h : isReservedLvar lv = true) : decodeLvar lv = .lvarReserved lv := by
  obtain ⟨hlo, hhi⟩ | ⟨hlo, hhi⟩ | hlo := (isReservedLvar_iff lv).mp h
  · simp (disch := omega) only [decodeLvar, if_neg, if_pos]
  · simp (disch := omega) only [decodeLvar, if_neg, if_pos]
  · simp (disch := omega) only [decodeLvar, if_neg]

/-- Settles O2: a row with fields is read back by its space's lemma above, and every other one has a code of its own. -/
theorem decodeOfEncodeIsTheInstruction : Obligations.DecodeOfEncodeIsTheInstruction := by
  intro i hw
  cases i with
  | illegalCommand code => exact decode_of_not_command ((Bool.not_eq_true' _).mp hw)
  | difReserved high => exact congrArg Except.ok (decodeDif_reserved hw)
  | difNoData h | difInt8 h | difInt16 h | difInt24 h | difInt32 h | difReal32 h | difInt48 h | difInt64 h
  | difSelection h | difBcd2 h | difBcd4 h | difBcd6 h | difBcd8 h | difLvar h | difBcd12 h =>
    exact congrArg Except.ok (decodeDif_difByte h (_, _) (by simp [dataDifRows]))
  | dife ext subunit tariff storage => exact congrArg Except.ok (decodeDife_difeByte ext subunit tariff storage)
  | vifPrimary ext value =>
    have hp : isPrimaryVif value = true := hw
    exact congrArg Except.ok (decodeVif_vifByte ext value (_, _) (by simp [plainVifRows, hp]))
  | vifUnsupported6F ext | vifExtTableFB ext | vifPlainText ext | vifExtTableFD ext | vifAny ext
  | vifManufacturer ext =>
    exact congrArg Except.ok (decodeVif_vifByte ext 0 (_, _) (by simp [plainVifRows]))
  | vife ext value => exact congrArg Except.ok (decodeVife_vifByte ext value)
  | lvarText length => exact congrArg Except.ok (decodeLvar_text (of_decide_eq_true hw))
  | lvarBcdPos count => exact congrArg Except.ok (decodeLvar_bcdPos (of_decide_eq_true hw))
  | lvarBcdNeg count => exact congrArg Except.ok (decodeLvar_bcdNeg (of_decide_eq_true hw))
  | lvarReserved lv => exact congrArg Except.ok (decodeLvar_reserved hw)
  | lvarBinary count => exact congrArg Except.ok (decodeLvar_binary count)
  | cSndUd fcb | cReqUd2 fcb | cReqUd1 fcb => cases fcb <;> rfl
  | cRspUd acd dfc => cases acd <;> cases dfc <;> rfl
  | _ => rfl

/-! ### Encoding what was decoded -/

/-- `p` is the packet of the well-formed instruction `i` of the space `f`. -/
def IsPacketOf (f : Format) (i : Instr) (p : Packet) : Prop := i.WellFormed ∧ i.format = f ∧ encode i = p

/-- A packet of the command space that decodes is the packet of its command, or its code is reserved (R70, R72). -/
theorem decodeCommand_cases {p : Packet} {i : Instr} (h : decodeCommand p = .ok i) :
    IsPacketOf .cmd8 i p ∨ (isCommandCode p.code = false ∧ i = .illegalCommand p.code) := by
  obtain ⟨code, operands, response⟩ := p
  unfold decodeCommand at h
  split at h
  case h_12 =>
    split at h
    · cases h
    case isFalse hc => cases h; exact .inr ⟨Bool.eq_false_of_not_eq_true hc, rfl⟩
  all_goals
    simp_all only
    cases h
    exact .inl ⟨rfl, rfl, rfl⟩

theorem decodeArm_isPacketOf {code b : Byte} {i : Instr} (h : decodeArm code b = .ok i) :
    IsPacketOf .state4 i { code := code, operands := [b] } := by
  unfold decodeArm at h
  split at h <;> cases h <;> exact ⟨rfl, rfl, rfl⟩

theorem decodeStart_isPacketOf {x : Byte} {i : Instr} (h : decodeStart x = .ok i) :
    IsPacketOf .wireStart8 i { code := x } := by
  unfold decodeStart at h
  split at h <;> cases h <;> exact ⟨rfl, rfl, rfl⟩

theorem decodeCField_isPacketOf {x : Byte} {i : Instr} (h : decodeCField x = .ok i) :
    IsPacketOf .cfield8 i { code := x } := by
  unfold decodeCField at h
  split at h <;> cases h <;> exact ⟨rfl, rfl, rfl⟩

/-- A row byte without operands is the packet of `i` where it is the byte of `i`. -/
theorem isPacketOf_code {f : Format} {i : Instr} {x : Byte} (hw : i.WellFormed) (hf : i.format = f)
    (hrow : encode i = { code := (encode i).code }) (hx : (encode i).code = x) : IsPacketOf f i { code := x } :=
  hx ▸ ⟨hw, hf, hrow⟩

/-- A DIF of low nibble 0xF that is none of the special DIFs has a reserved high nibble (R89). -/
theorem isReservedDifHigh_of_not_special {x : Byte} (h0 : x ≠ 0x0F#8) (h1 : x ≠ 0x1F#8) (h2 : x ≠ 0x2F#8)
    (h7 : x ≠ 0x7F#8) (hx : lvarByte (x.extractLsb' 4 4) 0xF = x) :
    isReservedDifHigh (x.extractLsb' 4 4) = true := by
  revert x
  decide

theorem decodeDif_isPacketOf (x : Byte) : IsPacketOf .dif8 (decodeDif x) { code := x } := by
  have hx : (difHeadOf x).byte (x.extractLsb' 0 4) = x := difByte_of_fields x
  unfold decodeDif
  split
  case h_5 h0 h1 h2 h7 =>
    split
    case h_16 =>
      have hlow : x.extractLsb' 0 4 = 0xF#4 := by
        clear hx
        generalize x.extractLsb' 0 4 = df at *
        revert df
        decide
      have hr : lvarByte (x.extractLsb' 4 4) 0xF#4 = x := hlow ▸ lvarByte_of_nibbles x
      exact isPacketOf_code (isReservedDifHigh_of_not_special h0 h1 h2 h7 hr) rfl rfl hr
    all_goals
      rename_i hdf
      rw [hdf] at hx
      exact isPacketOf_code rfl rfl rfl hx
  all_goals exact ⟨rfl, rfl, rfl⟩

theorem decodeDife_isPacketOf (x : Byte) : IsPacketOf .dife8 (decodeDife x) { code := x } :=
  isPacketOf_code rfl rfl rfl (difeByte_of_fields x)

theorem decodeVif_isPacketOf (x : Byte) : IsPacketOf .vif8 (decodeVif x) { code := x } := by
  have hx : vifByte (x.getLsbD 7) (x.extractLsb' 0 7) = x := vifByte_of_fields x
  unfold decodeVif
  split
  case h_7 h6F h7B h7C h7D h7E h7F =>
    refine isPacketOf_code ?_ rfl rfl hx
    simp only [Instr.WellFormed, Instr.wellFormed, isPrimaryVif, Bool.not_eq_true', List.contains_eq_mem,
      decide_eq_false_iff_not, List.mem_cons, List.not_mem_nil, not_or]
    exact ⟨h6F, h7B, h7C, h7D, h7E, h7F, not_false⟩
  all_goals
    rename_i hv
    rw [hv] at hx
    exact isPacketOf_code rfl rfl rfl hx

theorem decodeVife_isPacketOf (x : Byte) : IsPacketOf .vife8 (decodeVife x) { code := x } :=
  isPacketOf_code rfl rfl rfl (vifByte_of_fields x)

/-- A byte of the sixteen with the high nibble `n` is put together from `n` and its own low nibble. -/
theorem lvarByte_of_range {x : Byte} {n : Nat} (hlo : 16 * n ≤ x.toNat) (hhi : x.toNat < 16 * n + 16) :
    lvarByte (BitVec.ofNat 4 n) (x.extractLsb' 0 4) = x ∧ 16 * n + (x.extractLsb' 0 4).toNat = x.toNat := by
  have hx := x.isLt
  have hhigh : x.extractLsb' 4 4 = BitVec.ofNat 4 n := by
    apply BitVec.eq_of_toNat_eq
    rw [BitVec.extractLsb'_toNat, Nat.shiftRight_eq_div_pow, BitVec.toNat_ofNat]
    omega
  refine ⟨hhigh ▸ lvarByte_of_nibbles x, ?_⟩
  rw [BitVec.extractLsb'_toNat, Nat.shiftRight_zero]
  omega

theorem decodeLvar_isPacketOf (x : Byte) : IsPacketOf .lvar8 (decodeLvar x) { code := x } := by
  have hreserved (hx : (0xCA ≤ x.toNat ∧ x.toNat ≤ 0xCF) ∨ (0xDA ≤ x.toNat ∧ x.toNat ≤ 0xDF) ∨ 0xF0 ≤ x.toNat) :
      IsPacketOf .lvar8 (.lvarReserved x) { code := x } := ⟨(isReservedLvar_iff x).mpr hx, rfl, rfl⟩
  unfold decodeLvar
  split_ifs with hBF hC9 hCF hD9 hDF hEF
  · exact ⟨decide_eq_true hBF, rfl, rfl⟩
  · obtain ⟨hx, hk⟩ := lvarByte_of_range (n := 12) (Nat.not_le.mp hBF) (by omega)
    exact isPacketOf_code (decide_eq_true (by omega)) rfl rfl hx
  · exact hreserved (by omega)
  · obtain ⟨hx, hk⟩ := lvarByte_of_range (n := 13) (Nat.not_le.mp hCF) (by omega)
    exact isPacketOf_code (decide_eq_true (by omega)) rfl rfl hx
  · exact hreserved (by omega)
  · obtain ⟨hx, -⟩ := lvarByte_of_range (n := 14) (Nat.not_le.mp hDF) (by omega)
    exact isPacketOf_code rfl rfl rfl hx
  · exact hreserved (by omega)

/-- A packet of a space other than the command space that decodes is the packet of its instruction. -/
theorem decodeIn_isPacketOf {f : Format} {p : Packet} {i : Instr} (hf : f ≠ .cmd8) (h : decodeIn f p = .ok i) :
    IsPacketOf f i p := by
  obtain ⟨code, operands, response⟩ := p
  unfold decodeIn at h
  split at h
  case h_1 => exact absurd rfl hf
  case h_10 => cases h
  all_goals
    rename_i hoperands hresponse
    cases hoperands
    cases hresponse
  · exact decodeArm_isPacketOf h
  · exact decodeStart_isPacketOf h
  · exact Except.ok.inj h ▸ decodeDif_isPacketOf code
  · exact Except.ok.inj h ▸ decodeDife_isPacketOf code
  · exact Except.ok.inj h ▸ decodeVif_isPacketOf code
  · exact Except.ok.inj h ▸ decodeVife_isPacketOf code
  · exact Except.ok.inj h ▸ decodeLvar_isPacketOf code
  · exact decodeCField_isPacketOf h

/-- Settles O3: what decodes is the packet of its instruction, or a reserved code, whose operands are not read. -/
theorem encodeOfDecodeIsThePacket : Obligations.EncodeOfDecodeIsThePacket := by
  intro f p i h
  by_cases hf : f = .cmd8
  · subst hf
    obtain ⟨hw, hi, rfl⟩ | ⟨hc, rfl⟩ := decodeCommand_cases h
    · exact ⟨hw, hi, rfl, fun _ => rfl⟩
    · exact ⟨(Bool.not_eq_true' _).mpr hc, rfl, rfl, fun hcmd => absurd (hcmd rfl) (by simp [hc])⟩
  · obtain ⟨hw, hi, rfl⟩ := decodeIn_isPacketOf hf h
    exact ⟨hw, hi, rfl, fun _ => rfl⟩

/-! ### The metadata of a DIFE chain (R91) -/

/-- A chain's number that takes each DIFE's part `part e` below `w` bits of those after it is the sum of the parts,
each shifted by its place. -/
theorem sum_shifted_parts {number : List Byte → Nat} {part : Byte → Nat} {w : Nat} (hnil : number [] = 0)
    (hcons : ∀ e es, number (e :: es) = part e + 2 ^ w * number es) (c : Nat) (chain : List Byte) :
    (chain.zipIdx.map fun e => part e.1 <<< (c + w * e.2)).sum = 2 ^ c * number chain := by
  induction chain generalizing c with
  | nil => simp [hnil]
  | cons e es ih =>
    have hshift (k : Nat) : c + w * (k + 1) = c + w + w * k := by ring
    calc ((e :: es).zipIdx.map fun x => part x.1 <<< (c + w * x.2)).sum
        = part e <<< c + (es.zipIdx.map fun x => part x.1 <<< (c + w + w * x.2)).sum := by
          simp [List.zipIdx_cons, List.zipIdx_succ, Function.comp_def, hshift]
      _ = 2 ^ c * number (e :: es) := by
          rw [ih, hcons, Nat.shiftLeft_eq]
          ring

/-- Settles O56: each number takes a DIFE's field below those of the DIFEs after it, and the storage number takes bit 6
of the DIF below them all. -/
theorem difeMetadataSums : Obligations.DifeMetadataSums := by
  intro dif dife
  have hfield (x : Byte) (lo n : Nat) : (x.extractLsb' lo n).toNat = x.toNat / 2 ^ lo % 2 ^ n := by
    rw [BitVec.extractLsb'_toNat, Nat.shiftRight_eq_div_pow]
  have hstorage := sum_shifted_parts (number := difeStorage) (w := 4) rfl (fun _ _ => rfl) 1 dife
  have htariff := sum_shifted_parts (number := difeTariff) (w := 2) rfl (fun _ _ => rfl) 0 dife
  have hsubunit := sum_shifted_parts (number := difeSubunit) (w := 1) rfl (fun _ _ => rfl) 0 dife
  simp only [hfield]
  refine ⟨?_, ?_, ?_⟩
  · rw [storageOf]
    simpa using hstorage.symm
  · simpa using htariff.symm
  · simpa using hsubunit.symm

/-! ### Named C values (R81) -/

/-- A C value where the C field is expected is taken as R124 says. -/
theorem takeControl_selected {s : State} (c : Byte) (h : s.parser.st = .expectControl) :
    takeControl c s = .next { s with parser := { s.parser with wC := c, wSum := c, st := .expectAddress } } :=
  if_pos h

/-- Settles O17: each row takes its C byte. -/
theorem namedControlValues : Obligations.NamedControlValues := by
  intro s hs i c hrow
  have htake : exec i s = takeControl c s := by
    simp only [List.mem_cons, Prod.mk.injEq, List.not_mem_nil, or_false] at hrow
    obtain ⟨rfl, rfl⟩ | ⟨rfl, rfl⟩ | ⟨rfl, rfl⟩ | ⟨rfl, rfl⟩ | ⟨rfl, rfl⟩ | ⟨rfl, rfl⟩ | ⟨rfl, rfl⟩ | ⟨rfl, rfl⟩ |
      ⟨rfl, rfl⟩ | ⟨rfl, rfl⟩ | ⟨rfl, rfl⟩ := hrow
    all_goals rfl
  rw [htake, takeControl_selected c hs]

/-! ### Words written out (R70, R87, R92, R93) -/

/-- Settles O1: each decoder run on its words. -/
theorem sampleWordsDecode : Obligations.SampleWordsDecode := by
  unfold Obligations.SampleWordsDecode
  decide

end Sys2Proof.Machine
end

section
/-! PROOFS. The statements of 40_checksum.md: the checksum and its laws (R100, R101), VALIDATE_MARKERS (R103), and what
one wrong byte of a long frame gives (R105). -/

namespace Sys2Proof.Machine

open Sys2Proof.Config Sys2Proof.Claims

/-! ### Commands that only answer -/

/-- Two answers are the same next state exactly when they are the same result. -/
theorem answer_eq_next_iff {r r' : Result} {s : State} :
    answer r s = .next { s with results := s.results ++ [r'] } ↔ r = r' := by
  simp [answer_eq]

theorem checksumIs_iff {s : State} {bs : List Byte} {u : Byte} : ChecksumIs s bs u ↔ byteSum bs = u :=
  answer_eq_next_iff.trans (by rw [Result.sum.injEq])

/-! ### The checksum (R100, R101) -/

/-- The 8-bit sum is the sum of the bytes' values, to 8 bits. -/
theorem byteSum_eq_ofNat_sum (bs : List Byte) : byteSum bs = BitVec.ofNat 8 (bs.map BitVec.toNat).sum := by
  induction bs with
  | nil => rfl
  | cons b bs ih =>
    rw [byteSum_cons, ih, List.map_cons, List.sum_cons, BitVec.ofNat_add, BitVec.ofNat_toNat, BitVec.setWidth_eq]

theorem byteSum_perm {bs cs : List Byte} (h : bs.Perm cs) : byteSum bs = byteSum cs :=
  h.foldl_eq' (fun x _ y _ z => add_right_comm z x y) 0

/-- One byte replaced changes the sum by the difference. -/
theorem byteSum_replace (before after : List Byte) (x y : Byte) :
    byteSum (before ++ y :: after) = byteSum (before ++ x :: after) + (y - x) := by
  simp only [byteSum_append, byteSum_cons]
  ring

/-- A difference of two bytes that are not equal changes every sum. -/
theorem add_sub_ne_self {x y : Byte} (u : Byte) (h : x ≠ y) : u + (y - x) ≠ u :=
  fun hu => h (sub_eq_zero.mp (add_eq_left.mp hu)).symm

/-- Settles O28: the loop's sum is the sum of the values to 8 bits. -/
theorem checksumAnswersTheByteSum : Obligations.ChecksumAnswersTheByteSum := by
  intro s bs
  rw [checksumIs_iff, byteSum_eq_ofNat_sum]
  exact BitVec.eq_of_toNat_eq (by simp)

/-- Settles O29: each law is the byte sum's own. -/
theorem checksumLaws : Obligations.ChecksumLaws := by
  intro s
  simp only [checksumIs_iff]
  refine ⟨?append, ?perm, ?replace, ?compensate⟩
  case append =>
    rintro bs cs u v rfl rfl
    exact byteSum_append bs cs
  case perm =>
    rintro bs cs u hp rfl
    exact (byteSum_perm hp).symm
  case replace =>
    rintro before after x y u hxy rfl
    exact ⟨byteSum_replace before after x y, add_sub_ne_self _ hxy⟩
  case compensate =>
    rintro before between after x y u rfl
    simp only [byteSum_append, byteSum_cons]
    ring

/-! ### VALIDATE_MARKERS (R103) -/

/-- Settles O30: the command answers the checks' outcome, and the start and stop bytes are the constants named. -/
theorem validateMarkersChecks : Obligations.ValidateMarkersChecks :=
  fun s start stop lenA lenB => answer_eq (.markers (validateMarkers start stop lenA lenB)) s

/-! ### ENCODE of a long frame (30_encoding.md R71, 42_encoder.md R174, R175) -/

/-- A long frame's layout gives the frame back where its byte count fits a byte; otherwise the count in it is wrong. -/
theorem checkOperand_frameLayout_long (c a ci : Byte) (data : List Byte) :
    checkOperand (frameLayout (.long c a ci data)) =
      if 256 ≤ data.length then .error .badOperand
      else if maxData < data.length then .error .payloadTooLarge
      else .ok (.long c a ci data) := by
  have hcount : (BitVec.ofNat 8 data.length).toNat = data.length % 256 := BitVec.toNat_ofNat ..
  by_cases h : 256 ≤ data.length
  · have hne : data.length ≠ data.length % 256 := by omega
    simp [checkOperand, frameLayout, h, hne]
  · have heq : data.length % 256 = data.length := by omega
    simp [checkOperand, frameLayout, h, heq]

theorem encodingResult_eq_bytes_iff {e : Except EncodingCause (List Byte)} {w : List Byte} :
    encodingResult e = .bytes w ↔ e = .ok w := by
  cases e <;> simp [encodingResult]

/-- ENCODE answers bytes for a long frame only where its data fits, and then R174's. -/
theorem encodesTo_long {s : State} {c a ci : Byte} {data w : List Byte}
    (h : EncodesTo s (.long c a ci data) w) :
    data.length ≤ maxData ∧
      w = longPrefix s.params (BitVec.ofNat 8 (3 + data.length)) ++ (c :: a :: ci :: data) ++
        [byteSum (c :: a :: ci :: data), stopByte] := by
  have hw := encodingResult_eq_bytes_iff.mp (answer_eq_next_iff.mp h)
  rw [encodeOperand, checkOperand_frameLayout_long] at hw
  -- the two error branches answer no bytes
  split_ifs at hw with hcount hfit
  cases (if_neg hfit).symm.trans hw
  exact ⟨Nat.not_lt.mp hfit, by simp [add_assoc]⟩

theorem longPrefix_length (cfg : Params) (len : Byte) :
    (longPrefix cfg len).length = if cfg.longStart2 = true then 4 else 3 := by
  unfold longPrefix
  split <;> rfl

/-! ### Bytes taken within a frame (41_parser.md R119 to R127, R132) -/

/-- PUSH_BUF takes the bytes `bs` from `p` on to `q`, with no error and no frame on the way. -/
def Parser.Takes (cfg : Params) (bs : List Byte) (p q : Parser) : Prop :=
  ∀ rest k errors, p.pushBuf cfg (bs ++ rest) k errors = q.pushBuf cfg rest (k + bs.length) errors

/-- The parser `p` after the data bytes `data` of the frame in progress, with `buf` in BUF (R127). -/
def Parser.afterData (data : List Byte) (buf : Vector Byte 252) (p : Parser) : Parser :=
  { p.prologue with
    wIdx := p.wIdx + BitVec.ofNat 8 data.length, wRem := p.wRem - BitVec.ofNat 8 data.length,
    wSum := p.wSum + byteSum data, buf := buf,
    st := if p.wRem - BitVec.ofNat 8 data.length = 0 then .expectChecksum else .expectData }

/-- The parser `p` after the bytes before C of a long frame with length byte `len` (R120 to R123). -/
def Parser.afterPrefix (len : Byte) (p : Parser) : Parser :=
  { p.prologue with wKind := .long, wLen := len, st := .expectControl }

/-- The parser `p` after the bytes C, A and CI of a long or control frame (R124 to R126). -/
def Parser.afterHeader (c a ci : Byte) (p : Parser) : Parser :=
  { p.prologue with
    wC := c, wA := a, wCI := ci, wRem := p.wLen - 3, wIdx := 0, wSum := c + a + ci,
    st := if p.wLen - 3 = 0 then .expectChecksum else .expectData }

/-- The parser `p` after a long frame up to its checksum byte, with `buf` in BUF. -/
def Parser.atLongChecksum (c a ci : Byte) (data : List Byte) (buf : Vector Byte 252) (p : Parser) : Parser :=
  ((p.afterPrefix (BitVec.ofNat 8 (3 + data.length))).afterHeader c a ci).afterData data buf

section
variable {cfg : Params} {p q r : Parser}

theorem Parser.Takes.nil : p.Takes cfg [] p := fun _ _ _ => rfl

/-- A byte that only moves the frame in progress on is taken. -/
theorem Parser.Takes.cons {b : Byte} {bs : List Byte} (h : p.pushByte cfg b = .ok q) (hr : q.frameReady = false)
    (he : q.errEvent = false) (h' : q.Takes cfg bs r) : p.Takes cfg (b :: bs) r := by
  intro rest k errors
  have hbyte : p.pushBuf cfg (b :: (bs ++ rest)) k errors = q.pushBuf cfg (bs ++ rest) (k + 1) errors := by
    simp [Parser.pushBuf, h, hr, he]
  rw [List.cons_append, hbyte, h', List.length_cons, Nat.add_right_comm, Nat.add_assoc]

theorem Parser.Takes.append {bs cs : List Byte} (h : p.Takes cfg bs q) (h' : q.Takes cfg cs r) :
    p.Takes cfg (bs ++ cs) r := by
  intro rest k errors
  rw [List.append_assoc, h, h', List.length_append, Nat.add_assoc]

/-- The length byte repeated (R122). -/
theorem Parser.pushByte_lengthRepeat_same (hs : p.st = .expectLengthRepeat) :
    p.pushByte cfg p.wLen =
      .ok { p.prologue with st := if cfg.longStart2 then .expectStart2 else .expectControl } := by
  rw [p.pushByte_lengthRepeat cfg _ hs, Parser.armLengthRepeat, Parser.prologue_wLen, if_neg (not_not.mpr rfl)]
  split <;> rfl

/-- The bytes before C start a long frame of length `len` (R120 to R123). -/
theorem Parser.takes_longPrefix {len : Byte} (hs : p.st = .expectStart) (hl : 3 ≤ len.toNat) :
    p.Takes cfg (longPrefix cfg len) (p.afterPrefix len) := by
  refine .cons (p.pushByte_start cfg _ hs) rfl rfl ?_
  refine .cons ((Parser.pushByte_length _ _ _ rfl).trans (congrArg _ (if_neg (Nat.not_lt.mpr hl)))) rfl rfl ?_
  refine .cons (Parser.pushByte_lengthRepeat_same
    (p := { p.prologue with wKind := .long, wLen := len, st := .expectLengthRepeat }) rfl) rfl rfl ?_
  cases cfg.longStart2 with
  | false => exact .nil
  | true => exact .cons (Parser.pushByte_start2 _ _ _ rfl) rfl rfl .nil

theorem Parser.afterData_afterData (bs cs : List Byte) (buf buf' : Vector Byte 252) :
    (p.afterData bs buf).afterData cs buf' = p.afterData (bs ++ cs) buf' := by
  simp only [Parser.afterData, Parser.prologue, List.length_append, BitVec.ofNat_add, byteSum_append, add_assoc,
    sub_sub]

section
variable {data : List Byte} {buf : Vector Byte 252}

theorem Parser.afterData_wIdx (h : p.wIdx.toNat + data.length < 256) :
    (p.afterData data buf).wIdx.toNat = p.wIdx.toNat + data.length := by
  simp [Parser.afterData, Nat.mod_eq_of_lt h]

theorem Parser.afterData_wRem (h : data.length ≤ p.wRem.toNat) :
    (p.afterData data buf).wRem.toNat = p.wRem.toNat - data.length := by
  have := p.wRem.isLt
  simp only [Parser.afterData, BitVec.toNat_sub, BitVec.toNat_ofNat]
  omega

theorem Parser.afterData_st (h : data.length ≤ p.wRem.toNat) :
    (p.afterData data buf).st = if p.wRem.toNat = data.length then .expectChecksum else .expectData := by
  refine if_congr ?_ rfl rfl
  have hrem : (p.wRem - BitVec.ofNat 8 data.length).toNat = _ := Parser.afterData_wRem (buf := buf) h
  rw [eq_zero_iff, hrem]
  omega

end

/-- One data byte goes into BUF behind those already there (R127). -/
theorem Parser.pushByte_data_eq {b : Byte} (hs : p.st = .expectData) (hx : p.wIdx.toNat < 252) :
    p.pushByte cfg b = .ok (p.afterData [b] (p.buf.set p.wIdx.toNat b hx)) := by
  have hsum : byteSum [b] = b := by simp
  rw [p.pushByte_data cfg b hs, Parser.armData_ok b p.prologue hx, Parser.afterData, hsum]
  rfl

/-- Data bytes that the frame in progress has room for go into BUF behind those already there (R127). -/
theorem Parser.takes_data {data : List Byte} (hne : data ≠ []) (hs : p.st = .expectData)
    (hrem : data.length ≤ p.wRem.toNat) (hidx : p.wIdx.toNat + data.length ≤ 252) :
    ∃ buf, p.Takes cfg data (p.afterData data buf) ∧
      buf.toList.take (p.wIdx.toNat + data.length) = p.dataSoFar ++ data := by
  induction data generalizing p with
  | nil => exact absurd rfl hne
  | cons b bs ih =>
    rw [List.length_cons] at hrem hidx
    have hx : p.wIdx.toNat < 252 := by omega
    have hpush := p.pushByte_data_eq (cfg := cfg) (b := b) hs hx
    have hbuf := buf_take_set p.buf p.wIdx.toNat b hx
    by_cases hbs : bs = []
    · subst hbs
      exact ⟨_, .cons hpush rfl rfl .nil, hbuf⟩
    · have hpos := List.length_pos_of_ne_nil hbs
      set q := p.afterData [b] (p.buf.set p.wIdx.toNat b hx)
      have hrem' : q.wRem.toNat = p.wRem.toNat - 1 := Parser.afterData_wRem (by simp; omega)
      have hidx' : q.wIdx.toNat = p.wIdx.toNat + 1 := Parser.afterData_wIdx (by simp; omega)
      have hs' : q.st = .expectData := (Parser.afterData_st (by simp; omega)).trans (if_neg (by simp; omega))
      obtain ⟨buf, htakes, htake⟩ := ih hbs hs' (by omega) (by omega)
      refine ⟨buf, .cons hpush rfl rfl (Parser.afterData_afterData [b] bs _ buf ▸ htakes), ?_⟩
      have hsofar : q.dataSoFar = p.dataSoFar ++ [b] := by rw [Parser.dataSoFar, hidx']; exact hbuf
      rw [hsofar, hidx', List.append_assoc] at htake
      rwa [List.length_cons, Nat.add_comm bs.length, ← Nat.add_assoc]

/-- C, A and CI are taken whatever they are (R124 to R126). -/
theorem Parser.takes_header (c a ci : Byte) (hs : p.st = .expectControl) (hk : p.wKind = .long) :
    p.Takes cfg [c, a, ci] (p.afterHeader c a ci) := by
  have haddress : (p.prologue.armControl c).pushByte cfg a =
      .ok { p.prologue with wC := c, wA := a, wSum := c + a, st := .expectControlInfo } := by
    rw [Parser.pushByte_address _ _ _ rfl]
    simp [Parser.armAddress, hk]
  exact .cons (p.pushByte_control cfg c hs) rfl rfl (.cons haddress rfl rfl
    (.cons (Parser.pushByte_controlInfo _ _ _ rfl) rfl rfl .nil))

/-- The data block's length, as W_REM counts it (R126). -/
theorem toNat_dataLength {n : Nat} (h : n ≤ maxData) : (BitVec.ofNat 8 (3 + n) - 3).toNat = n := by
  rw [maxData] at h
  have hlen : (BitVec.ofNat 8 (3 + n)).toNat = 3 + n := by simp; omega
  rw [toNat_sub_three _ (by omega), hlen, Nat.add_sub_cancel_left]

section
variable {data : List Byte} (c a ci : Byte) (hfit : data.length ≤ maxData)
include hfit

theorem Parser.atLongChecksum_st (buf : Vector Byte 252) :
    (p.atLongChecksum c a ci data buf).st = .expectChecksum :=
  (Parser.afterData_st (toNat_dataLength hfit).ge).trans (if_pos (toNat_dataLength hfit))

/-- A long frame up to its checksum byte is taken, and its data is in BUF (R120 to R127). -/
theorem Parser.takes_long (hs : p.st = .expectStart) (hne : data ≠ []) :
    ∃ buf,
      p.Takes cfg (longPrefix cfg (BitVec.ofNat 8 (3 + data.length)) ++ (c :: a :: ci :: data))
        (p.atLongChecksum c a ci data buf) ∧
      buf.toList.take data.length = data := by
  have hpos := List.length_pos_of_ne_nil hne
  have hrem := toNat_dataLength hfit
  rw [maxData] at hfit
  have hlen : 3 ≤ (BitVec.ofNat 8 (3 + data.length)).toNat := by simp; omega
  let p' := (p.afterPrefix (BitVec.ofNat 8 (3 + data.length))).afterHeader c a ci
  have hdata : p'.st = .expectData := if_neg fun h => by
    rw [eq_zero_iff] at h
    exact hpos.ne (h.symm.trans hrem)
  have hidx : p'.wIdx.toNat + data.length = data.length := Nat.zero_add _
  obtain ⟨buf, htakes, htake⟩ := Parser.takes_data (cfg := cfg) hne hdata hrem.ge (hidx.trans_le hfit)
  refine ⟨buf, (Parser.takes_longPrefix hs hlen).append ((Parser.takes_header c a ci rfl rfl).append htakes), ?_⟩
  rwa [hidx] at htake

end

/-- The running sum at the checksum byte is the sum from C on (40_checksum.md R104). -/
theorem Parser.atLongChecksum_wSum (c a ci : Byte) (data : List Byte) (buf : Vector Byte 252) :
    (p.atLongChecksum c a ci data buf).wSum = byteSum (c :: a :: ci :: data) := by
  show c + a + ci + byteSum data = _
  simp [add_assoc]

/-! ### Bytes that record an error (R120, R128) -/

/-- A wrong checksum byte (R128). -/
theorem Parser.pushByte_checksum_ne {b : Byte} (hs : p.st = .expectChecksum) (hb : b ≠ p.wSum) :
    p.pushByte cfg b = .ok (p.prologue.recordError .checksum) := by
  rw [p.pushByte_checksum cfg b hs, Parser.armChecksum, Parser.prologue_wSum, if_pos hb]

/-- A first byte that starts no frame (R120). -/
theorem Parser.pushByte_badStart {b : Byte} (hs : p.st = .expectStart) (hack : b ≠ ackByte)
    (hshort : b ≠ startShort) (hlong : b ≠ startLong) :
    p.pushByte cfg b = .ok (p.prologue.recordError .badStart) := by
  rw [p.pushByte_start cfg b hs, Parser.armStart, if_neg hack, if_neg hshort, if_neg hlong]

/-- PUSH_BUF counts a byte that records an error and goes on (R132). -/
theorem Parser.pushBuf_recordError {b : Byte} {cause : FramingCause} (bs : List Byte) (k errors : Nat)
    (h : p.pushByte cfg b = .ok (p.prologue.recordError cause)) :
    p.pushBuf cfg (b :: bs) k errors = (p.prologue.recordError cause).pushBuf cfg bs (k + 1) (errors + 1) := by
  simp [Parser.pushBuf, h]

/-- STATUS after an error: EXPECT_START, ERR_EVENT and the cause (10_state.md R24). -/
theorem Parser.recordError_status (cause : FramingCause) :
    (p.prologue.recordError cause).status =
      0x00000020#32 ||| (framingCode (some cause)).setWidth 32 <<< 8 := by
  simp [Parser.status, Parser.remaining, PState.code, framingCode, BitVec.or_comm]

end

theorem exec_pushByte_ok {b : Byte} {s : State} {q : Parser} (h : s.parser.pushByte s.params b = .ok q) :
    exec (.pushByte b) s = .next { s with parser := q, results := s.results ++ [.status q.status] } := by
  change execPushByte b s = _
  rw [execPushByte, h]
  rfl

theorem exec_pushBuf_ok {bs : List Byte} {s : State} {k errors : Nat} {q : Parser}
    (h : s.parser.pushBuf s.params bs 0 0 = .ok (k, errors, q)) :
    exec (.pushBuf bs) s = .next { s with parser := q, results := s.results ++ [.pushed k errors q.status] } := by
  change execPushBuf bs s = _
  rw [execPushBuf, h]
  rfl

/-! ### One wrong byte of a long frame (R105) -/

/-- Another value for one byte changes the sum. -/
theorem byteSum_set_ne {bs : List Byte} {k : Nat} {y : Byte} (hk : k < bs.length) (hy : bs[k]? ≠ some y) :
    byteSum (bs.set k y) ≠ byteSum bs := by
  have hxy : bs[k] ≠ y := fun h => hy (by rw [List.getElem?_eq_getElem hk, h])
  have hsplit : bs = bs.take k ++ bs[k] :: bs.drop (k + 1) := by simp
  rw [List.set_eq_take_append_cons_drop, if_pos hk, byteSum_replace _ _ bs[k], ← hsplit]
  exact add_sub_ne_self _ hxy

/-- A byte sequence as long as C, A, CI and some data is C, A, CI and as much data. -/
theorem exists_header_data {bs : List Byte} {n : Nat} (h : bs.length = n + 3) :
    ∃ c a ci data, bs = c :: a :: ci :: data ∧ data.length = n := by
  obtain ⟨c, bs, rfl⟩ := List.exists_cons_of_length_eq_add_one h
  obtain ⟨a, bs, rfl⟩ := List.exists_cons_of_length_eq_add_one (Nat.succ.inj h)
  obtain ⟨ci, data, rfl⟩ := List.exists_cons_of_length_eq_add_one (Nat.succ.inj (Nat.succ.inj h))
  exact ⟨c, a, ci, data, rfl, Nat.succ.inj (Nat.succ.inj (Nat.succ.inj h))⟩

/-- A long frame with a checksum byte that is not its sum gives one error, at that byte (R104, R128). -/
theorem Parser.pushBuf_wrongChecksum {cfg : Params} {p : Parser} {c a ci cs : Byte} {data : List Byte}
    (hs : p.st = .expectStart) (hne : data ≠ []) (hfit : data.length ≤ maxData)
    (hcs : cs ≠ byteSum (c :: a :: ci :: data)) :
    ∃ q : Parser,
      p.pushBuf cfg (longPrefix cfg (BitVec.ofNat 8 (3 + data.length)) ++ (c :: a :: ci :: data) ++ [cs]) 0 0 =
        .ok ((longPrefix cfg (BitVec.ofNat 8 (3 + data.length)) ++ (c :: a :: ci :: data)).length + 1, 1,
          q.prologue.recordError .checksum) := by
  obtain ⟨buf, htakes, -⟩ := Parser.takes_long (cfg := cfg) c a ci hfit hs hne
  rw [← Parser.atLongChecksum_wSum c a ci data buf (p := p)] at hcs
  have hbyte := Parser.pushByte_checksum_ne (cfg := cfg) (Parser.atLongChecksum_st c a ci hfit buf) hcs
  exact ⟨_, by rw [htakes, Parser.pushBuf_recordError _ _ _ hbyte, Parser.pushBuf, Nat.zero_add, Nat.zero_add]⟩

/-- Settles O37: the frame with the wrong byte is taken up to its checksum byte, which is the sum of another body. -/
theorem corruptedByteIsCaught : Obligations.CorruptedByteIsCaught := by
  intro s pre body c a ci cs y data k hs hdata hbody henc hpre hk hy
  obtain ⟨hfit, hw⟩ := encodesTo_long henc
  obtain ⟨hframe, htail⟩ := List.append_inj' hw rfl
  obtain ⟨rfl, rfl⟩ := List.append_inj hframe (hpre.trans (longPrefix_length _ _).symm)
  obtain ⟨rfl, -⟩ := List.cons.inj htail
  obtain ⟨c', a', ci', data', hset, hlen⟩ := exists_header_data (bs := (c :: a :: ci :: data).set k y)
    (List.length_set ..)
  have hsum := byteSum_set_ne hk hy
  have hsize := List.length_set (as := c :: a :: ci :: data) (i := k) (a := y)
  rw [hset] at hsum hsize
  obtain ⟨q, hq⟩ := Parser.pushBuf_wrongChecksum (cfg := s.params) hs (List.ne_nil_of_length_pos (by omega))
    (hlen.trans_le hfit) hsum.symm
  rw [hlen, List.length_append, hsize, ← hset] at hq
  have hstop := Parser.pushByte_badStart (cfg := s.params) (b := stopByte) (p := q.prologue.recordError .checksum) rfl
    (by decide) (by decide) (by decide)
  have hchecksum : (q.prologue.recordError .checksum).status = 0x00000520#32 := Parser.recordError_status _
  have hbadStart : ((q.prologue.recordError .checksum).prologue.recordError .badStart).status = 0x00000120#32 :=
    Parser.recordError_status _
  exact ⟨_, _, exec_pushBuf_ok hq, by rw [← hchecksum], exec_pushByte_ok hstop, by rw [← hbadStart]⟩

end Sys2Proof.Machine
end

section
/-! PROOFS. The statements of 41_parser.md: the arms (R120 to R131), PUSH_BYTE (R119, R130), PUSH_BUF (R132), exact
acceptance (R133), resynchronization (R134), the longest frame (R135), and the commands that read the parser (R140,
R141). -/

namespace Sys2Proof.Machine

open Sys2Proof.Config Sys2Proof.Claims

/-! ### Bytes as numbers -/

/-- A length byte below 3 is 0, 1 or 2 (R121). -/
theorem toNat_lt_three_iff (b : Byte) : b.toNat < 3 ↔ b = 0 ∨ b = 1 ∨ b = 2 := by
  revert b
  decide

theorem add_eq_ofNat_mod (x y : Byte) : x + y = BitVec.ofNat 8 ((x.toNat + y.toNat) % 256) := by
  apply BitVec.eq_of_toNat_eq
  simp

theorem eq_ofNat_of_toNat_eq {x : Byte} {n : Nat} (h : x.toNat = n) : x = BitVec.ofNat 8 n := by
  rw [← h, BitVec.ofNat_toNat, BitVec.setWidth_eq]

/-! ### The arms (R120 to R129, R131) -/

theorem whenExpecting_ok {sel : PState} {f : Parser → Except Fault Parser} {s : State} {p : Parser}
    (hs : s.parser.st = sel) (hf : f s.parser = .ok p) : whenExpecting sel f s = .next { s with parser := p } := by
  simp [whenExpecting, hs, hf]

/-- Settles O11: the two arms as they are written; a length byte below 3 is one of three. -/
theorem startAndLengthArms : Obligations.StartAndLengthArms := by
  intro s b
  refine ⟨fun hs => whenExpecting_ok (f := fun p => .ok (p.armStart b)) hs rfl,
    fun hs => whenExpecting_ok (f := fun p => .ok (p.armLength b)) hs (congrArg Except.ok ?_)⟩
  exact if_congr (toNat_lt_three_iff b) rfl rfl

/-- Settles O12: the two arms as they are written. -/
theorem lengthRepeatAndStart2Arms : Obligations.LengthRepeatAndStart2Arms :=
  fun s b => ⟨fun hs => whenExpecting_ok (f := fun p => .ok (p.armLengthRepeat s.params b)) hs rfl,
    fun hs => whenExpecting_ok (f := fun p => .ok (p.armStart2 b)) hs rfl⟩

/-- Settles O13: the sums are those modulo 256, and W_LEN - 3 does not wrap. -/
theorem fieldArms : Obligations.FieldArms := by
  intro s b
  refine ⟨fun hs => whenExpecting_ok (f := fun p => .ok (p.armControl b)) hs rfl,
    fun hs => whenExpecting_ok (f := fun p => .ok (p.armAddress b)) hs ?_,
    fun hs h3 => whenExpecting_ok (f := fun p => .ok (p.armControlInfo b)) hs ?_⟩
  · rw [← add_eq_ofNat_mod]
    rfl
  · have hrem := toNat_sub_three s.parser.wLen h3
    have hlast : s.parser.wLen - 3 = 0 ↔ s.parser.wLen.toNat = 3 := by rw [eq_zero_iff, hrem]; omega
    rw [← add_eq_ofNat_mod, ← eq_ofNat_of_toNat_eq hrem, Parser.armControlInfo, if_congr hlast rfl rfl]

/-- Settles O14: neither W_IDX + 1 nor W_REM - 1 wraps. -/
theorem dataArm : Obligations.DataArm := by
  intro s b hs hidx hrem
  have hx : s.parser.wIdx.toNat < 252 := by omega
  refine ⟨s.parser.buf.set s.parser.wIdx.toNat b hx, whenExpecting_ok hs ?_, fun j => ?_⟩
  · have hnext := toNat_add_one s.parser.wIdx (by omega)
    have hleft := toNat_sub_one s.parser.wRem hrem
    have hlast : s.parser.wRem - 1 = 0 ↔ s.parser.wRem.toNat = 1 := by rw [eq_zero_iff, hleft]; omega
    rw [← add_eq_ofNat_mod, ← eq_ofNat_of_toNat_eq hnext, ← eq_ofNat_of_toNat_eq hleft, Parser.armData_ok _ _ hx,
      if_congr hlast rfl rfl]
  · simp [Vector.getElem_set, eq_comm]

/-- Settles O15: the length byte is 3 where its value is. -/
theorem checksumAndStopArms : Obligations.ChecksumAndStopArms := by
  intro s b
  refine ⟨fun hs => whenExpecting_ok (f := fun p => .ok (p.armChecksum b)) hs rfl,
    fun hs => whenExpecting_ok (f := fun p => .ok (p.armStop b)) hs ?_⟩
  rw [← if_congr (eq_three_iff s.parser.wLen) rfl rfl]
  rfl

/-- Settles O16: the three beginnings as they are written. -/
theorem firstByteRows : Obligations.FirstByteRows :=
  fun _ hs => ⟨whenExpecting_ok (f := fun p => .ok p.beginSingle) hs rfl,
    whenExpecting_ok (f := fun p => .ok p.beginShort) hs rfl, whenExpecting_ok (f := fun p => .ok p.beginLong) hs rfl⟩

/-! ### Rows that nothing selects (R119) -/

/-- Settles O18: each row runs only where its own state or place selects it. -/
theorem unselectedRowsAreRefused : Obligations.UnselectedRowsAreRefused := by
  intro s i
  refine ⟨fun hf hs => ?start, fun hf hs => ?cfield, fun hf hs => ?arm, fun hf hs => ?dif, fun hf hs => ?dife,
    fun hf hs => ?vif, fun hf hs => ?vife, fun hf hs => ?lvar⟩
  case start =>
    cases i with
    | frameSingle | frameShort | frameControlOrLong => exact if_neg hs
    | _ => cases hf
  case cfield =>
    cases i with
    | cSndNke | cSndUd | cReqUd2 | cReqUd1 | cRspUd => exact if_neg hs
    | _ => cases hf
  case arm =>
    cases i with
    | armExpectStart | armExpectLength | armExpectLengthRepeat | armExpectStart2 | armExpectControl
    | armExpectAddress | armExpectControlInfo | armExpectData | armExpectChecksum | armExpectStop =>
      exact if_neg fun hst => hs (by rw [hst]; rfl)
    | _ => cases hf
  case dif =>
    cases i with
    | difManufData | difManufDataMore | difIdleFill | difGlobalReadout | difReserved | difNoData | difInt8 | difInt16
    | difInt24 | difInt32 | difReal32 | difInt48 | difInt64 | difSelection | difBcd2 | difBcd4 | difBcd6 | difBcd8
    | difLvar | difBcd12 => exact whenReading_refused _ _ hs
    | _ => cases hf
  case dife =>
    cases i with
    | dife => exact whenReading_refused _ _ hs
    | _ => cases hf
  case vif =>
    cases i with
    | vifUnsupported6F | vifExtTableFB | vifPlainText | vifExtTableFD | vifAny | vifManufacturer | vifPrimary =>
      exact whenReading_refused _ _ hs
    | _ => cases hf
  case vife =>
    cases i with
    | vife => exact whenReading_refused _ _ hs
    | _ => cases hf
  case lvar =>
    cases i with
    | lvarText | lvarBcdPos | lvarReserved | lvarBcdNeg | lvarBinary => exact whenReading_refused _ _ hs
    | _ => cases hf

/-! ### What one pushed byte can do (R119 to R131) -/

/-- What PUSH_BYTE of a byte does to the parser `p`: it records an error, or the byte is the one that ST asks for and
the frame goes on, or it completes the frame. -/
inductive Parser.ByteEffect (cfg : Params) (p : Parser) : Byte → Parser → Prop
  | error {b : Byte} {cause : FramingCause} (hb : raisedCause p b = some cause) :
    ByteEffect cfg p b (p.prologue.recordError cause)
  | single (hs : p.st = .expectStart) : ByteEffect cfg p ackByte (p.prologue.completeFrame .single)
  | short (hs : p.st = .expectStart) : ByteEffect cfg p startShort p.prologue.beginShort
  | long (hs : p.st = .expectStart) : ByteEffect cfg p startLong p.prologue.beginLong
  | length {b : Byte} (hs : p.st = .expectLength) (hb : 3 ≤ b.toNat) :
    ByteEffect cfg p b { p.prologue with wLen := b, st := .expectLengthRepeat }
  | lengthRepeat (hs : p.st = .expectLengthRepeat) :
    ByteEffect cfg p p.wLen { p.prologue with st := if cfg.longStart2 then .expectStart2 else .expectControl }
  | start2 (hs : p.st = .expectStart2) : ByteEffect cfg p startLong { p.prologue with st := .expectControl }
  | control {b : Byte} (hs : p.st = .expectControl) : ByteEffect cfg p b (p.prologue.armControl b)
  | address {b : Byte} (hs : p.st = .expectAddress) : ByteEffect cfg p b (p.prologue.armAddress b)
  | controlInfo {b : Byte} (hs : p.st = .expectControlInfo) : ByteEffect cfg p b (p.prologue.armControlInfo b)
  | data {b : Byte} (hs : p.st = .expectData) (hx : p.wIdx.toNat < 252) :
    ByteEffect cfg p b (p.afterData [b] (p.buf.set p.wIdx.toNat b hx))
  | checksum (hs : p.st = .expectChecksum) : ByteEffect cfg p p.wSum { p.prologue with st := .expectStop }
  | stop (hs : p.st = .expectStop) : ByteEffect cfg p stopByte (p.prologue.completeFrame p.pendingFrame)

section
variable {cfg : Params} {b : Byte} {p q : Parser}

/-- The checksum byte that is the running sum (R128). -/
theorem Parser.pushByte_checksum_same (hs : p.st = .expectChecksum) :
    p.pushByte cfg p.wSum = .ok { p.prologue with st := .expectStop } :=
  (p.pushByte_checksum cfg _ hs).trans (congrArg _ (if_neg (not_not.mpr rfl)))

/-- A pushed byte that answers a next state has one of these effects. -/
theorem Parser.pushByte_effect (h : p.pushByte cfg b = .ok q) : p.ByteEffect cfg b q := by
  cases hs : p.st with
  | expectStart =>
    cases (p.pushByte_start cfg b hs).symm.trans h
    unfold Parser.armStart
    split_ifs with hack hshort hlong
    · exact hack ▸ .single hs
    · exact hshort ▸ .short hs
    · exact hlong ▸ .long hs
    · exact .error (by simp_all [raisedCause, ackByte, startShort, startLong])
  | expectLength =>
    cases (p.pushByte_length cfg b hs).symm.trans h
    unfold Parser.armLength
    split_ifs with hb
    · exact .error (by simp [raisedCause, hs, hb])
    · exact .length hs (Nat.not_lt.mp hb)
  | expectLengthRepeat =>
    by_cases hb : b = p.wLen
    · subst hb
      cases (Parser.pushByte_lengthRepeat_same hs).symm.trans h
      exact .lengthRepeat hs
    · cases ((p.pushByte_lengthRepeat cfg b hs).trans (congrArg _ (if_pos hb))).symm.trans h
      exact .error (by simp [raisedCause, hs, hb])
  | expectStart2 =>
    cases (p.pushByte_start2 cfg b hs).symm.trans h
    unfold Parser.armStart2
    split_ifs with hb
    · exact .error (by simpa [raisedCause, hs, startLong] using hb)
    · exact not_not.mp hb ▸ .start2 hs
  | expectControl =>
    cases (p.pushByte_control cfg b hs).symm.trans h
    exact .control hs
  | expectAddress =>
    cases (p.pushByte_address cfg b hs).symm.trans h
    exact .address hs
  | expectControlInfo =>
    cases (p.pushByte_controlInfo cfg b hs).symm.trans h
    exact .controlInfo hs
  | expectData =>
    have hx := Parser.armData_idx ((p.pushByte_data cfg b hs).symm.trans h)
    cases (Parser.pushByte_data_eq hs hx).symm.trans h
    exact .data hs hx
  | expectChecksum =>
    by_cases hb : b = p.wSum
    · subst hb
      cases (Parser.pushByte_checksum_same hs).symm.trans h
      exact .checksum hs
    · cases (Parser.pushByte_checksum_ne hs hb).symm.trans h
      exact .error (by simp [raisedCause, hs, hb])
  | expectStop =>
    cases (p.pushByte_stop cfg b hs).symm.trans h
    unfold Parser.armStop
    split_ifs with hb
    · exact .error (by simpa [raisedCause, hs, stopByte] using hb)
    · exact not_not.mp hb ▸ .stop hs

/-- FR changes only with a completed frame (10_state.md R30). -/
theorem Parser.ByteEffect.fr_eq (h : p.ByteEffect cfg b q) (hr : q.frameReady = false) : q.fr = p.fr := by
  cases h with
  | single | stop => cases hr
  | _ => rfl

/-- BUF changes only in EXPECT_DATA, at W_IDX (20_memory.md R51). -/
theorem Parser.ByteEffect.buf_getElem (h : p.ByteEffect cfg b q) (j : Fin 252) :
    q.buf[j] = if p.st = .expectData ∧ j.val = p.wIdx.toNat then b else p.buf[j] := by
  cases h with
  | data hs hx => simp [Parser.afterData, Vector.getElem_set, hs, eq_comm]
  | error hb =>
    have hs : p.st ≠ .expectData := fun hs => by simp [raisedCause, hs] at hb
    simp [hs]
  | single hs | short hs | long hs | length hs | lengthRepeat hs | start2 hs | control hs | address hs
  | controlInfo hs | checksum hs | stop hs => simp [hs]

/-- The parser `q` is further in the frame than `p`: in a later state, or with one data byte fewer to come. -/
def Parser.Advances (p q : Parser) : Prop :=
  p.st.code.toNat < q.st.code.toNat ∨
    (p.st = .expectData ∧ q.st = .expectData ∧ q.wRem.toNat + 1 = p.wRem.toNat)

/-- EXPECT_START has the least code. -/
theorem Parser.Advances.st_ne_start (h : p.Advances q) : q.st ≠ .expectStart := by
  obtain hcode | ⟨-, hq, -⟩ := h
  · intro hq
    rw [hq] at hcode
    exact Nat.not_lt_zero _ hcode
  · simp [hq]

/-- A byte that is not the last one of a frame and no error moves the frame on (R130). -/
theorem Parser.ByteEffect.advances (h : p.ByteEffect cfg b q) (hi : p.FrameInv) (he : q.errEvent = false)
    (hr : q.frameReady = false) : p.Advances q := by
  cases h with
  | error => cases he
  | single | stop => cases hr
  | short hs | long hs | length hs | start2 hs | control hs | checksum hs => exact .inl (by simp [hs, PState.code])
  | lengthRepeat hs => exact .inl (by cases cfg.longStart2 <;> simp [hs, PState.code])
  | address hs => exact .inl (by cases hk : p.wKind <;> simp [hs, hk, PState.code])
  | controlInfo hs => exact .inl (by rw [Parser.armControlInfo_st, hs]; split <;> decide)
  | data hs hx =>
    simp only [Parser.FrameInv, hs] at hi
    obtain ⟨-, -, hpos, -⟩ := hi
    have hrem := Parser.afterData_wRem (data := [b]) (buf := p.buf.set p.wIdx.toNat b hx) hpos
    have hst := Parser.afterData_st (data := [b]) (buf := p.buf.set p.wIdx.toNat b hx) hpos
    rw [List.length_singleton] at hrem
    split_ifs at hst
    · exact .inl (by rw [hst, hs]; decide)
    · exact .inr ⟨hs, hst, by omega⟩

/-- An error and a completed frame end the frame in progress, and do not come together. -/
theorem Parser.ByteEffect.flags (h : p.ByteEffect cfg b q) :
    (q.errEvent = true ∧ q.frameReady = false ∧ q.st = .expectStart) ∨
      (q.errEvent = false ∧ q.frameReady = true ∧ q.st = .expectStart) ∨
      (q.errEvent = false ∧ q.frameReady = false) := by
  cases h with
  | error => exact .inl ⟨rfl, rfl, rfl⟩
  | single | stop => exact .inr (.inl ⟨rfl, rfl, rfl⟩)
  | _ => exact .inr (.inr ⟨rfl, rfl⟩)

end

/-! ### PUSH_BYTE as a whole (R119, R130) -/

/-- The arm of each parser state, on the byte `b` (10_state.md R22). -/
def armRow (b : Byte) : PState → Instr
  | .expectStart => .armExpectStart b
  | .expectLength => .armExpectLength b
  | .expectLengthRepeat => .armExpectLengthRepeat b
  | .expectStart2 => .armExpectStart2 b
  | .expectControl => .armExpectControl b
  | .expectAddress => .armExpectAddress b
  | .expectControlInfo => .armExpectControlInfo b
  | .expectData => .armExpectData b
  | .expectChecksum => .armExpectChecksum b
  | .expectStop => .armExpectStop b

/-- ST's code selects the arm of ST. -/
theorem decodeIn_state4_code (b : Byte) (st : PState) :
    decodeIn .state4 { code := st.code.setWidth 8, operands := [b] } = .ok (armRow b st) := by
  cases st <;> rfl

/-- The arm of ST is the one that PUSH_BYTE runs. -/
theorem exec_armRow (b : Byte) (s : State) :
    exec (armRow b s.parser.st) s = whenExpecting s.parser.st (Parser.arm s.params b) s := by
  obtain ⟨⟨st⟩⟩ := s
  cases st <;> rfl

/-- What PUSH_BYTE makes of its arm's outcome: STATUS after the arm is the result (R119). -/
def afterArm : Host.Outcome State Fault Refusal → Host.Outcome State Fault Refusal
  | .next t => .next { t with results := t.results ++ [.status t.parser.status] }
  | .fault e => .fault e
  | .refused r => .refused r

/-- Settles O19: the arm's row on the state with the flags cleared ends as PUSH_BYTE's own arm does. -/
theorem pushByteRunsTheSelectedArm : Obligations.PushByteRunsTheSelectedArm := by
  intro s b
  refine ⟨armRow b s.parser.st, decodeIn_state4_code b _, ?_⟩
  have harm := exec_armRow b { s with parser := s.parser.prologue }
  cases ha : s.parser.pushByte s.params b with
  | ok q =>
    have hrow := harm.trans (whenExpecting_ok rfl ha)
    exact (exec_pushByte_ok ha).trans (congrArg afterArm hrow).symm
  | error e =>
    have hrow := harm.trans (whenExpecting_fault rfl ha)
    exact (execPushByte_fault ha).trans (congrArg afterArm hrow).symm

/-- Settles O20, from the byte's effect. -/
theorem pushByteCompletes : Obligations.PushByteCompletes := by
  intro s b hx
  cases h : s.parser.pushByte s.params b with
  | error e =>
    obtain ⟨hs, hidx⟩ := Parser.pushByte_error _ _ _ h
    exact absurd (hx hs) (by omega)
  | ok p =>
    have heffect := Parser.pushByte_effect h
    exact ⟨p, exec_pushByte_ok h, heffect.fr_eq, heffect.buf_getElem⟩

/-- Settles O23, from the byte's effect. -/
theorem pushedByteAdvancesCompletesOrErrs : Obligations.PushedByteAdvancesCompletesOrErrs := by
  rintro s t b ⟨hi, -⟩ h
  obtain ⟨q, hq, rfl⟩ := execPushByte_next h
  have heffect := Parser.pushByte_effect hq
  refine heffect.flags.imp_right (Or.imp_right ?_)
  rintro ⟨he, hr⟩
  have hadvances := heffect.advances hi.frame he hr
  exact ⟨he, hr, hadvances.st_ne_start, hadvances⟩

/-! ### PUSH_BUF byte by byte (R132) -/

section
variable {cfg : Params} {b : Byte} {p q : Parser}

/-- PUSH_BUF stops after a byte that completes a frame. -/
theorem Parser.pushBuf_cons_ready (bs : List Byte) (k errors : Nat) (h : p.pushByte cfg b = .ok q)
    (hr : q.frameReady = true) :
    p.pushBuf cfg (b :: bs) k errors = .ok (k + 1, errors + q.errEvent.toNat, q) := by
  simp [Parser.pushBuf, h, hr]

/-- PUSH_BUF goes on after every other byte. -/
theorem Parser.pushBuf_cons_goesOn (bs : List Byte) (k errors : Nat) (h : p.pushByte cfg b = .ok q)
    (hr : q.frameReady = false) :
    p.pushBuf cfg (b :: bs) k errors = q.pushBuf cfg bs (k + 1) (errors + q.errEvent.toNat) := by
  simp [Parser.pushBuf, h, hr]

/-- The two ways a PUSH_BUF of a nonempty buffer can end. -/
theorem Parser.pushBuf_cons_cases {bs : List Byte} {k errors k' errors' : Nat}
    (h : p.pushBuf cfg (b :: bs) k errors = .ok (k', errors', q)) :
    ∃ r, p.pushByte cfg b = .ok r ∧
      ((r.frameReady = true ∧ k' = k + 1 ∧ errors' = errors + r.errEvent.toNat ∧ q = r) ∨
        (r.frameReady = false ∧ r.pushBuf cfg bs (k + 1) (errors + r.errEvent.toNat) = .ok (k', errors', q))) := by
  cases hb : p.pushByte cfg b with
  | error e => simp [Parser.pushBuf, hb] at h
  | ok r =>
    refine ⟨r, rfl, ?_⟩
    cases hr : r.frameReady with
    | true =>
      cases (Parser.pushBuf_cons_ready bs k errors hb hr).symm.trans h
      exact .inl ⟨rfl, rfl, rfl, rfl⟩
    | false => exact .inr ⟨rfl, (Parser.pushBuf_cons_goesOn bs k errors hb hr).symm.trans h⟩

/-- PUSH_BUF consumes at least one byte of a nonempty buffer, all of it unless a frame is complete, and counts at most
one error a byte. -/
theorem Parser.pushBuf_counts {bs : List Byte} {k errors k' errors' : Nat}
    (h : p.pushBuf cfg bs k errors = .ok (k', errors', q)) :
    k' ≤ k + bs.length ∧ errors ≤ errors' ∧ errors' + k ≤ errors + k' ∧
      (k' < k + bs.length → q.frameReady = true) ∧ (bs ≠ [] → k < k') := by
  induction bs generalizing p k errors with
  | nil =>
    cases h
    exact ⟨le_rfl, le_rfl, le_rfl, fun hk => absurd hk (lt_irrefl _), fun hne => absurd rfl hne⟩
  | cons b bs ih =>
    obtain ⟨r, -, hcase⟩ := Parser.pushBuf_cons_cases h
    have he := r.errEvent.toNat_le
    rw [List.length_cons]
    obtain ⟨hr, rfl, rfl, rfl⟩ | ⟨-, h⟩ := hcase
    · exact ⟨by omega, by omega, by omega, fun _ => hr, fun _ => by omega⟩
    · obtain ⟨hk, herr, hone, hready, -⟩ := ih h
      exact ⟨by omega, by omega, by omega, fun hlt => hready (by omega), fun _ => by omega⟩

end

/-- Settles O25: PUSH_BUF's loop is one byte and PUSH_BUF of the rest, its counters shifted by that byte's. -/
theorem pushBufIsRepeatedPushByte : Obligations.PushBufIsRepeatedPushByte := by
  refine ⟨fun _ => rfl, fun s t b bs h => ?_⟩
  obtain ⟨q, hq, rfl⟩ := execPushByte_next h
  refine ⟨fun hr => ?_, fun hr u k errors hu hres => ?_⟩
  · rw [exec_pushBuf_ok (Parser.pushBuf_cons_ready bs 0 0 hq hr), Nat.zero_add, Nat.zero_add]
  · obtain ⟨k', errors', p, hp, rfl⟩ := execPushBuf_next hu
    simp only [List.append_cancel_left_eq, List.cons.injEq, Result.pushed.injEq] at hres
    obtain ⟨⟨rfl, rfl, -⟩, -⟩ := hres
    have hrest : q.pushBuf s.params bs (0 + 1) (0 + q.errEvent.toNat) =
        .ok (k' + 1, errors' + q.errEvent.toNat, p) := by
      have hshift := Parser.pushBuf_shift s.params bs q 0 0 1 q.errEvent.toNat
      rw [hp] at hshift
      simpa [Except.map, Nat.add_comm] using hshift
    exact exec_pushBuf_ok ((Parser.pushBuf_cons_goesOn bs 0 0 hq hr).trans hrest)

/-- Settles O26: the loop completes under the invariant, with its counters in their bounds. -/
theorem pushBufCompletes : Obligations.PushBufCompletes := by
  rintro s bs ⟨hi, -⟩
  obtain ⟨k, errors, q, hq, -⟩ := hi.pushBuf s.params bs 0 0
  obtain ⟨hk, -, herrors, hready, hpos⟩ := Parser.pushBuf_counts hq
  rw [Nat.zero_add] at hk hready herrors
  exact ⟨q, k, errors, exec_pushBuf_ok hq, hk, herrors, hready, hpos⟩

/-! ### A frame's bytes are accepted (R133) -/

section
variable {cfg : Params} {b : Byte} {p q : Parser}

/-- The checksum byte and the stop byte complete the frame in progress (R128, R129). -/
theorem Parser.pushBuf_ending (hs : p.st = .expectChecksum) (k errors : Nat) :
    p.pushBuf cfg [p.wSum, stopByte] k errors =
      .ok (k + 2, errors, p.prologue.completeFrame p.pendingFrame) := by
  have hstop : Parser.pushByte cfg stopByte { p.prologue with st := .expectStop } =
      .ok (p.prologue.completeFrame p.pendingFrame) :=
    (Parser.pushByte_stop _ _ _ rfl).trans (congrArg _ (if_neg (not_not.mpr rfl)))
  exact (Parser.pushBuf_cons_goesOn _ k errors (Parser.pushByte_checksum_same hs) rfl).trans
    (Parser.pushBuf_cons_ready [] _ _ hstop rfl)

/-- Bytes that lead to the checksum byte of a frame, with that byte and the stop byte, are that frame's. -/
theorem Parser.Takes.complete {bs : List Byte} (h : p.Takes cfg bs q) (hs : q.st = .expectChecksum) (k errors : Nat) :
    p.pushBuf cfg (bs ++ [q.wSum, stopByte]) k errors =
      .ok (k + (bs ++ [q.wSum, stopByte]).length, errors, q.prologue.completeFrame q.pendingFrame) := by
  rw [h, Parser.pushBuf_ending hs, List.length_append, Nat.add_assoc]
  rfl

/-- A short frame up to its checksum byte is taken (R120, R124, R125). -/
theorem Parser.takes_short (c a : Byte) (hs : p.st = .expectStart) :
    p.Takes cfg [startShort, c, a] ((p.prologue.beginShort.armControl c).armAddress a) :=
  .cons (p.pushByte_start cfg _ hs) rfl rfl (.cons (Parser.pushByte_control _ _ _ rfl) rfl rfl
    (.cons (Parser.pushByte_address _ _ _ rfl) rfl rfl .nil))

/-- A control frame up to its checksum byte is taken (R120 to R126). -/
theorem Parser.takes_control (c a ci : Byte) (hs : p.st = .expectStart) :
    p.Takes cfg (longPrefix cfg 3 ++ [c, a, ci]) ((p.afterPrefix 3).afterHeader c a ci) :=
  (Parser.takes_longPrefix hs le_rfl).append (Parser.takes_header c a ci rfl rfl)

/-- The frame in progress at the checksum byte of a long frame. -/
theorem Parser.atLongChecksum_pendingFrame {c a ci : Byte} {data : List Byte} {buf : Vector Byte 252}
    (hpos : 1 ≤ data.length) (hfit : data.length ≤ maxData) (hbuf : buf.toList.take data.length = data) :
    (p.atLongChecksum c a ci data buf).pendingFrame = .long c a ci data := by
  have hlen : (BitVec.ofNat 8 (3 + data.length)).toNat = 3 + data.length := by
    rw [maxData] at hfit
    rw [BitVec.toNat_ofNat]
    omega
  have hne : (p.atLongChecksum c a ci data buf).wLen ≠ 3 := fun h => by
    have h3 := (eq_three_iff _).mp h
    change (BitVec.ofNat 8 (3 + data.length)).toNat = 3 at h3
    omega
  have hdata : (p.atLongChecksum c a ci data buf).frameData = data := by
    change buf.toList.take ((BitVec.ofNat 8 (3 + data.length)).toNat - 3) = data
    rw [hlen, Nat.add_sub_cancel_left, hbuf]
  rw [Parser.pendingFrame, if_neg nofun, if_neg hne, hdata]
  rfl

/-- The bytes of a legal frame complete that frame, with no error. -/
theorem Parser.pushBuf_encodeWire {f : Frame} {w : List Byte} (hs : p.st = .expectStart) (hf : Frame.Legal f)
    (hw : encodeWire cfg f = .ok w) (k errors : Nat) :
    ∃ q, p.pushBuf cfg w k errors = .ok (k + w.length, errors, q) ∧ q.frameReady = true ∧ q.fr = f := by
  cases f with
  | single =>
    cases hw
    have hack : p.pushByte cfg ackByte = .ok (p.prologue.completeFrame .single) := p.pushByte_start cfg _ hs
    exact ⟨_, Parser.pushBuf_cons_ready [] k errors hack rfl, rfl, rfl⟩
  | short c a =>
    cases hw
    exact ⟨_, (Parser.takes_short c a hs).complete rfl k errors, rfl, rfl⟩
  | control c a ci =>
    cases hw
    have hw' : encodeControl cfg c a ci =
        longPrefix cfg 3 ++ [c, a, ci] ++ [((p.afterPrefix 3).afterHeader c a ci).wSum, stopByte] := by
      rw [encodeControl, List.append_assoc]
      rfl
    rw [hw']
    exact ⟨_, (Parser.takes_control c a ci hs).complete (if_pos (sub_self _)) k errors, rfl, rfl⟩
  | long c a ci data =>
    obtain ⟨hpos, hfit⟩ := hf
    obtain ⟨buf, htakes, hbuf⟩ := Parser.takes_long (cfg := cfg) c a ci hfit hs (List.ne_nil_of_length_pos hpos)
    have hw' : w = longPrefix cfg (BitVec.ofNat 8 (3 + data.length)) ++ (c :: a :: ci :: data) ++
        [(p.atLongChecksum c a ci data buf).wSum, stopByte] := by
      cases (if_neg (Nat.not_lt.mpr hfit)).symm.trans hw
      rw [Parser.atLongChecksum_wSum]
      simp [add_assoc]
    rw [hw']
    exact ⟨_, htakes.complete (Parser.atLongChecksum_st c a ci hfit buf) k errors, rfl,
      Parser.atLongChecksum_pendingFrame hpos hfit hbuf⟩

/-! ### Only a frame's bytes are accepted (R133) -/

/-- The bytes of the frame in progress that come before its C field (R120 to R123). -/
def Parser.opening (cfg : Params) (p : Parser) : List Byte :=
  match p.wKind with
  | .short => [startShort]
  | .long => longPrefix cfg p.wLen

/-- The bytes of the frame in progress from its C field on to its checksum byte (R124 to R127). -/
def Parser.bodySoFar (p : Parser) : List Byte :=
  match p.wKind with
  | .short => [p.wC, p.wA]
  | .long => [p.wC, p.wA, p.wCI] ++ p.dataSoFar

/-- The bytes of the frame in progress, as its registers hold them. -/
def Parser.wireSoFar (cfg : Params) (p : Parser) : List Byte :=
  match p.st with
  | .expectStart => []
  | .expectLength => [startLong]
  | .expectLengthRepeat => [startLong, p.wLen]
  | .expectStart2 => [startLong, p.wLen, p.wLen]
  | .expectControl => p.opening cfg
  | .expectAddress => p.opening cfg ++ [p.wC]
  | .expectControlInfo => p.opening cfg ++ [p.wC, p.wA]
  | .expectData => p.opening cfg ++ p.bodySoFar
  | .expectChecksum => p.opening cfg ++ p.bodySoFar
  | .expectStop => p.opening cfg ++ p.bodySoFar ++ [p.wSum]

theorem Parser.bodySoFar_long (hk : p.wKind = .long) : p.bodySoFar = [p.wC, p.wA, p.wCI] ++ p.dataSoFar := by
  simp [Parser.bodySoFar, hk]

/-- Before the checksum byte, whether data is still to come or not (R126, R127). -/
theorem Parser.wireSoFar_of_st {last : Prop} [Decidable last]
    (hs : p.st = if last then .expectChecksum else .expectData) :
    p.wireSoFar cfg = p.opening cfg ++ p.bodySoFar := by
  split_ifs at hs <;> simp [Parser.wireSoFar, hs]

/-- A data byte follows those already in BUF (R127). -/
theorem Parser.afterData_dataSoFar (hx : p.wIdx.toNat < 252) :
    (p.afterData [b] (p.buf.set p.wIdx.toNat b hx)).dataSoFar = p.dataSoFar ++ [b] := by
  have hidx : (p.afterData [b] (p.buf.set p.wIdx.toNat b hx)).wIdx.toNat = p.wIdx.toNat + 1 :=
    Parser.afterData_wIdx (show p.wIdx.toNat + 1 < 256 by omega)
  rw [Parser.dataSoFar, hidx]
  exact buf_take_set p.buf _ b hx

/-- A byte that goes on with the frame joins its bytes. -/
theorem Parser.ByteEffect.wireSoFar (h : p.ByteEffect cfg b q) (hi : p.FrameInv)
    (h2 : p.st = .expectStart2 → cfg.longStart2 = true) (he : q.errEvent = false) (hr : q.frameReady = false) :
    q.wireSoFar cfg = p.wireSoFar cfg ++ [b] := by
  cases h with
  | error hb => cases he
  | single hs => cases hr
  | stop hs => cases hr
  | short hs => simp [Parser.wireSoFar, Parser.opening, hs]
  | long hs => simp [Parser.wireSoFar, hs]
  | length hs hb => simp [Parser.wireSoFar, hs]
  | lengthRepeat hs =>
    simp only [Parser.FrameInv, hs] at hi
    cases hc : cfg.longStart2 <;> simp [Parser.wireSoFar, Parser.opening, longPrefix, hs, hi, hc]
  | start2 hs =>
    simp only [Parser.FrameInv, hs] at hi
    simp [Parser.wireSoFar, Parser.opening, longPrefix, hs, hi, h2 hs]
  | control hs => simp [Parser.wireSoFar, Parser.opening, hs]
  | address hs => cases hk : p.wKind <;> simp [Parser.wireSoFar, Parser.opening, Parser.bodySoFar, hs, hk]
  | controlInfo hs =>
    simp only [Parser.FrameInv, hs] at hi
    rw [Parser.wireSoFar_of_st (Parser.armControlInfo_st _ _)]
    simp [Parser.wireSoFar, Parser.opening, Parser.bodySoFar, Parser.dataSoFar, hs, hi]
  | data hs hx =>
    simp only [Parser.FrameInv, hs] at hi
    obtain ⟨hk, -⟩ := hi
    have hdata := Parser.afterData_dataSoFar (b := b) hx
    rw [Parser.wireSoFar_of_st rfl, Parser.bodySoFar_long (by exact hk), hdata]
    simp [Parser.wireSoFar, Parser.opening, Parser.bodySoFar_long hk, Parser.afterData, hs]
  | checksum hs => simp [Parser.wireSoFar, Parser.opening, Parser.bodySoFar, Parser.dataSoFar, hs]

/-- Every frame has a byte. -/
theorem encodeWire_ne_nil {f : Frame} {w : List Byte} (h : encodeWire cfg f = .ok w) : w ≠ [] := by
  cases f with
  | single | short | control => cases h; exact List.cons_ne_nil _ _
  | long c a ci data =>
    rw [encodeWire, encodeLong] at h
    split at h <;> cases h
    exact List.cons_ne_nil _ _

/-- In EXPECT_STOP the frame in progress is written as the bytes that have come and the stop byte (R129,
42_encoder.md R172 to R174). -/
theorem Parser.encodeWire_pendingFrame (hi : p.FrameInv) (hs : p.st = .expectStop) :
    encodeWire cfg p.pendingFrame = .ok (p.wireSoFar cfg ++ [stopByte]) := by
  have hi' := hi
  simp only [Parser.FrameInv, hs] at hi'
  obtain ⟨hk, hsum⟩ | ⟨hk, h3, hidx, hsum⟩ := hi'
  · simp [Parser.pendingFrame, Parser.wireSoFar, Parser.opening, Parser.bodySoFar, encodeWire, encodeShort, hs, hk,
      hsum]
  · have hwire : p.wireSoFar cfg ++ [stopByte] = longPrefix cfg p.wLen ++ [p.wC, p.wA, p.wCI] ++ p.dataSoFar ++
        [p.wC + p.wA + p.wCI + byteSum p.dataSoFar, stopByte] := by
      simp [Parser.wireSoFar, Parser.opening, Parser.bodySoFar, hs, hk, hsum]
    rw [hwire, Parser.pendingFrame, if_neg (by simp [hk]), hi.frameData_eq hs hk]
    split_ifs with hl
    · have hzero : p.wIdx.toNat = 0 := by rw [hidx, hl]; rfl
      simp [encodeWire, encodeControl, Parser.dataSoFar, hzero, hl]
    · have hlt := p.wLen.isLt
      have hlen : p.dataSoFar.length = p.wLen.toNat - 3 := hidx ▸ buf_take_length _ _ (by omega)
      have hbyte : BitVec.ofNat 8 (3 + p.dataSoFar.length) = p.wLen :=
        (eq_ofNat_of_toNat_eq (by omega)).symm
      rw [encodeWire, encodeLong, if_neg (by rw [hlen, maxData]; omega), hbyte]

/-- A byte that completes a frame is its last one. -/
theorem Parser.ByteEffect.encodeWire (h : p.ByteEffect cfg b q) (hi : p.FrameInv) (hr : q.frameReady = true) :
    encodeWire cfg q.fr = .ok (p.wireSoFar cfg ++ [b]) := by
  cases h with
  | single hs => simp [Parser.wireSoFar, Machine.encodeWire, encodeSingle, hs]
  | stop hs => exact Parser.encodeWire_pendingFrame hi hs
  | _ => cases hr

/-- A pushed byte keeps the condition on the frame in progress, whatever the flags were. -/
theorem Parser.FrameInv.inv_pushByte (hi : p.FrameInv) (h : p.pushByte cfg b = .ok q) : q.Inv :=
  (p.prologue.inv_of_frameInv hi rfl rfl).pushByte cfg b h

/-- PUSH_BUF that completes a frame with its last byte, and with no error, has taken the bytes of a legal frame. -/
theorem Parser.encodeWire_of_pushBuf {w : List Byte} {k errors : Nat} (hi : p.FrameInv)
    (h2 : p.st = .expectStart2 → cfg.longStart2 = true) (hw : w ≠ [])
    (h : p.pushBuf cfg w k errors = .ok (k + w.length, errors, q)) (hr : q.frameReady = true) :
    Frame.Legal q.fr ∧ encodeWire cfg q.fr = .ok (p.wireSoFar cfg ++ w) := by
  induction w generalizing p k with
  | nil => exact absurd rfl hw
  | cons b bs ih =>
    obtain ⟨r, hb, hcase⟩ := Parser.pushBuf_cons_cases h
    have heffect := Parser.pushByte_effect hb
    have hri := hi.inv_pushByte hb
    rw [List.length_cons] at hcase
    obtain ⟨-, hk, -, rfl⟩ | ⟨hready, h⟩ := hcase
    · obtain rfl : bs = [] := List.length_eq_zero_iff.mp (by omega)
      obtain ⟨-, -, hlegal, -⟩ := hri
      exact ⟨hlegal hr, heffect.encodeWire hi hr⟩
    · obtain ⟨-, herrors, -⟩ := Parser.pushBuf_counts h
      have herr : r.errEvent = false := Bool.toNat_eq_zero.mp (by omega)
      have hwire := heffect.wireSoFar hi h2 herr hready
      rw [herr, ← Nat.add_assoc, Nat.add_right_comm k bs.length] at h
      have hbs : bs ≠ [] := by
        rintro rfl
        cases h
        exact absurd (hready.symm.trans hr) nofun
      obtain ⟨hlegal, henc⟩ := ih hri.frame (Parser.pushByte_expectStart2 hb) hbs h
      rw [hwire, List.append_assoc] at henc
      exact ⟨hlegal, henc⟩

end

section
variable {s : State} {w : List Byte} {f : Frame}

/-- Of a legal frame ENCODE answers the wire bytes (42_encoder.md R170, R175). -/
theorem encodesTo_iff (hf : Frame.Legal f) : EncodesTo s f w ↔ encodeWire s.params f = .ok w := by
  have hcheck : checkOperand (frameLayout f) = .ok f := by
    cases f with
    | single | short | control => rfl
    | long c a ci data =>
      obtain ⟨-, hfit⟩ := hf
      rw [checkOperand_frameLayout_long, if_neg (by rw [maxData] at hfit; omega), if_neg (Nat.not_lt.mpr hfit)]
  have hoperand : encodeOperand s.params (frameLayout f) = encodeWire s.params f := by rw [encodeOperand, hcheck]
  exact answer_eq_next_iff.trans (hoperand ▸ encodingResult_eq_bytes_iff)

theorem pushCompletes_iff {errors : Nat} : PushCompletes s w errors f ↔
    w ≠ [] ∧
      ∃ q, s.parser.pushBuf s.params w 0 0 = .ok (w.length, errors, q) ∧ q.frameReady = true ∧ q.fr = f := by
  refine and_congr_right fun _ => ⟨?_, ?_⟩
  · rintro ⟨t, ht, hres, hr, hf⟩
    obtain ⟨k, errors', q, hq, rfl⟩ := execPushBuf_next ht
    simp only [List.append_cancel_left_eq, List.cons.injEq, Result.pushed.injEq] at hres
    obtain ⟨⟨rfl, rfl, -⟩, -⟩ := hres
    exact ⟨q, hq, hr, hf⟩
  · rintro ⟨q, hq, hr, hf⟩
    exact ⟨_, exec_pushBuf_ok hq, rfl, hr, hf⟩

end

/-- Settles O33: the registers hold the bytes of the frame in progress, so a frame that completes was written so; and
the bytes of a legal frame lead through its states to its end. -/
theorem acceptanceIsExact : Obligations.AcceptanceIsExact := by
  intro s w f hs
  rw [pushCompletes_iff]
  constructor
  · rintro ⟨hw, q, hq, hr, rfl⟩
    have hi : s.parser.FrameInv := by simp [Parser.FrameInv, hs]
    rw [← Nat.zero_add w.length] at hq
    obtain ⟨hf, henc⟩ := Parser.encodeWire_of_pushBuf hi (by simp [hs]) hw hq hr
    exact ⟨hf, (encodesTo_iff hf).mpr (by simpa [Parser.wireSoFar, hs] using henc)⟩
  · rintro ⟨hf, henc⟩
    obtain ⟨q, hq, hr, hfr⟩ := Parser.pushBuf_encodeWire hs hf ((encodesTo_iff hf).mp henc) 0 0
    rw [Nat.zero_add] at hq
    exact ⟨encodeWire_ne_nil ((encodesTo_iff hf).mp henc), q, hq, hr, hfr⟩

/-! ### Resynchronization (R134) -/

/-- Bytes that start no frame are one error each, and the parser still expects a start byte (R120). -/
theorem Parser.pushBuf_garbage {cfg : Params} {garbage : List Byte} {p : Parser}
    (hg : ∀ b ∈ garbage, b ≠ startShort ∧ b ≠ startLong ∧ b ≠ ackByte) (hs : p.st = .expectStart)
    (rest : List Byte) (k errors : Nat) :
    ∃ q : Parser, q.st = .expectStart ∧
      p.pushBuf cfg (garbage ++ rest) k errors =
        q.pushBuf cfg rest (k + garbage.length) (errors + garbage.length) := by
  induction garbage generalizing p k errors with
  | nil => exact ⟨p, hs, rfl⟩
  | cons b bs ih =>
    obtain ⟨⟨hshort, hlong, hack⟩, hbs⟩ := List.forall_mem_cons.mp hg
    have hbyte := Parser.pushByte_badStart (cfg := cfg) hs hack hshort hlong
    obtain ⟨q, hq, hpush⟩ := ih hbs (p := p.prologue.recordError .badStart) rfl (k + 1) (errors + 1)
    refine ⟨q, hq, ?_⟩
    rw [List.cons_append, Parser.pushBuf_recordError _ _ _ hbyte, hpush, List.length_cons, Nat.add_right_comm k,
      Nat.add_right_comm errors]
    rfl

/-- Behind a stale 0x68 the frame 10 7B 01 7C 16 is lost: its start byte is taken as a length, its C byte differs from
that, and the three bytes left start no frame (R134). -/
theorem Parser.pushBuf_behind_stale_start {cfg : Params} {p : Parser} (hs : p.st = .expectStart) :
    ∃ q : Parser, p.pushBuf cfg [0x68, 0x10, 0x7B, 0x01, 0x7C, 0x16] 0 0 =
      .ok (6, 4, q.prologue.recordError .badStart) := by
  let r := { p.prologue with wKind := .long, wLen := 0x10, st := .expectLengthRepeat }
  have htakes : p.Takes cfg [0x68, 0x10] r :=
    .cons (p.pushByte_start cfg _ hs) rfl rfl (.cons (Parser.pushByte_length _ _ _ rfl) rfl rfl .nil)
  have hmismatch : r.pushByte cfg 0x7B = .ok (r.prologue.recordError .lengthMismatch) :=
    Parser.pushByte_lengthRepeat _ _ _ rfl
  obtain ⟨q, hq, hgarbage⟩ := Parser.pushBuf_garbage (cfg := cfg) (garbage := [0x01, 0x7C]) (by decide)
    (p := r.prologue.recordError .lengthMismatch) rfl [0x16] 3 1
  have hlast := Parser.pushByte_badStart (cfg := cfg) (b := 0x16) hq (by decide) (by decide) (by decide)
  refine ⟨q, (htakes [0x7B, 0x01, 0x7C, 0x16] 0 0).trans ?_⟩
  rw [Parser.pushBuf_recordError _ _ _ hmismatch]
  exact hgarbage.trans (Parser.pushBuf_recordError [] _ _ hlast)

/-- Settles O35: garbage leaves the parser in EXPECT_START, and so does RESET; a stale 0x68 does not. -/
theorem resynchronization : Obligations.Resynchronization := by
  refine ⟨?garbage, ?reset, ?stale⟩
  case garbage =>
    intro s garbage w f hs hg hf henc
    have hw := (encodesTo_iff hf).mp henc
    obtain ⟨p, hp, hpush⟩ := Parser.pushBuf_garbage (cfg := s.params) hg hs w 0 0
    obtain ⟨q, hq, hr, hfr⟩ := Parser.pushBuf_encodeWire hp hf hw (0 + garbage.length) (0 + garbage.length)
    refine pushCompletes_iff.mpr ⟨List.append_ne_nil_of_right_ne_nil _ (encodeWire_ne_nil hw), q, ?_, hr, hfr⟩
    rw [hpush, hq, List.length_append, Nat.zero_add]
  case reset =>
    intro s u w f hu hf henc
    cases hu
    have hw := (encodesTo_iff hf).mp henc
    exact (acceptanceIsExact _ w f rfl).mpr ⟨hf, (encodesTo_iff hf).mpr hw⟩
  case stale =>
    intro s hs
    obtain ⟨q, hq⟩ := Parser.pushBuf_behind_stale_start (cfg := s.params) hs
    have hstatus : (q.prologue.recordError .badStart).status = 0x00000120#32 := Parser.recordError_status _
    exact ⟨_, exec_pushBuf_ok hq, by rw [← hstatus], rfl⟩

/-! ### The longest frame (R135) -/

/-- The most bytes that can follow before the parser expects a start byte again: in EXPECT_START those of the longest
frame. -/
def Parser.bytesLeft (p : Parser) : Nat :=
  match p.st with
  | .expectStart => 261
  | .expectLength => 260
  | .expectLengthRepeat => 259
  | .expectStart2 => 258
  | .expectControl => 257
  | .expectAddress => 256
  | .expectControlInfo => 255
  | .expectData => p.wRem.toNat + 2
  | .expectChecksum => 2
  | .expectStop => 1

theorem Parser.bytesLeft_pos (p : Parser) : 0 < p.bytesLeft := by
  unfold Parser.bytesLeft
  split <;> omega

theorem Parser.bytesLeft_le (p : Parser) : p.bytesLeft ≤ 261 := by
  have := p.wRem.isLt
  unfold Parser.bytesLeft
  split <;> omega

/-- Before the checksum byte only the data still to come and the two last bytes are left. -/
theorem Parser.bytesLeft_le_of_st {p : Parser} {last : Prop} [Decidable last]
    (hs : p.st = if last then .expectChecksum else .expectData) : p.bytesLeft ≤ p.wRem.toNat + 2 := by
  split_ifs at hs <;> simp [Parser.bytesLeft, hs]

/-- A byte that does not end the frame leaves fewer bytes. -/
theorem Parser.ByteEffect.bytesLeft_lt {cfg : Params} {b : Byte} {p q : Parser} (h : p.ByteEffect cfg b q)
    (hi : p.FrameInv) (hs : q.st ≠ .expectStart) : q.bytesLeft < p.bytesLeft := by
  cases h with
  | error | single | stop => exact absurd rfl hs
  | short hp | long hp | length hp | start2 hp | control hp | checksum hp => simp [Parser.bytesLeft, hp]
  | lengthRepeat hp => cases cfg.longStart2 <;> simp [Parser.bytesLeft, hp]
  | address hp => cases hk : p.wKind <;> simp [Parser.bytesLeft, hp, hk]
  | controlInfo hp =>
    simp only [Parser.FrameInv, hp] at hi
    obtain ⟨-, h3, -⟩ := hi
    have hlt := p.wLen.isLt
    have hleft : p.bytesLeft = 255 := by simp [Parser.bytesLeft, hp]
    have hle := Parser.bytesLeft_le_of_st (Parser.armControlInfo_st b p.prologue)
    rw [Parser.armControlInfo_wRem, Parser.prologue_wLen, toNat_sub_three _ h3] at hle
    omega
  | data hp hx =>
    simp only [Parser.FrameInv, hp] at hi
    obtain ⟨-, -, hpos, -⟩ := hi
    have hleft : p.bytesLeft = p.wRem.toNat + 2 := by simp [Parser.bytesLeft, hp]
    have hle := Parser.bytesLeft_le_of_st (p := p.afterData [b] (p.buf.set p.wIdx.toNat b hx)) rfl
    rw [Parser.afterData_wRem (data := [b]) hpos, List.length_singleton] at hle
    omega

theorem Parser.Inv.readyOnlyAtStart {p : Parser} (hi : p.Inv) : p.ReadyOnlyAtStart := by
  obtain ⟨hr, -⟩ := hi
  exact hr

/-- As many bytes as can be left lead to EXPECT_START, or some of them do. -/
theorem Parser.Inv.pushBuf_take_ends {cfg : Params} {p : Parser} {bs : List Byte} (hi : p.Inv)
    (hlen : p.bytesLeft ≤ bs.length) (k errors : Nat) :
    ∃ n, 1 ≤ n ∧ n ≤ bs.length ∧
      ∃ k' errors' q, p.pushBuf cfg (bs.take n) k errors = .ok (k', errors', q) ∧ q.st = .expectStart := by
  induction bs generalizing p k errors with
  | nil => exact absurd hlen (Nat.not_le.mpr p.bytesLeft_pos)
  | cons b bs ih =>
    obtain ⟨r, hr⟩ := hi.pushByte_ok cfg b
    have hri := hi.pushByte cfg b hr
    by_cases hs : r.st = .expectStart
    · refine ⟨1, le_rfl, by simp, ?_⟩
      cases hready : r.frameReady with
      | true => exact ⟨_, _, r, Parser.pushBuf_cons_ready [] k errors hr hready, hs⟩
      | false => exact ⟨_, _, r, Parser.pushBuf_cons_goesOn [] k errors hr hready, hs⟩
    · have hready : r.frameReady = false := Bool.eq_false_of_not_eq_true fun h => hs (hri.readyOnlyAtStart h)
      have hlt := (Parser.pushByte_effect hr).bytesLeft_lt hi.frame hs
      rw [List.length_cons] at hlen
      obtain ⟨n, -, hn, k', errors', q, hq, hqs⟩ := ih hri (by omega) (k + 1) (errors + r.errEvent.toNat)
      exact ⟨n + 1, by omega, by simpa using hn, k', errors', q,
        (Parser.pushBuf_cons_goesOn _ k errors hr hready).trans hq, hqs⟩

/-- Settles O36: each byte that does not lead to EXPECT_START leaves fewer bytes to come, and at most 261 are. -/
theorem anyFrameEndsWithin261Bytes : Obligations.AnyFrameEndsWithin261Bytes := by
  rintro s bs ⟨hi, -⟩ hlen
  obtain ⟨n, hpos, hn, k, errors, q, hq, hs⟩ :=
    hi.pushBuf_take_ends (cfg := s.params) (hlen ▸ s.parser.bytesLeft_le) 0 0
  exact ⟨n, hpos, hlen ▸ hn, _, exec_pushBuf_ok hq, hs⟩

/-! ### The commands that read the parser (R140, R141) -/

/-- Settles O27: STATUS is read; GET_FRAME by whether a frame is retained. -/
theorem getStateAndGetFrame : Obligations.GetStateAndGetFrame := by
  intro s
  refine ⟨rfl, execGetFrame_empty, fun hr => (execGetFrame_ready hr).trans ?_⟩
  cases s.parser.fr <;> cases s.params.getFrameConsumes <;> rfl

end Sys2Proof.Machine
end

section
/-! PROOFS. The statements of 42_encoder.md: what ENCODE writes and rejects (R171 to R175), the round trip of a frame
(R177), what ENCODE_PAYLOAD writes (R178, R179, R181), and the round trips of a payload and of a telegram (R180,
R183). -/

namespace Sys2Proof.Machine

open Sys2Proof.Config Sys2Proof.Claims

/-! ### ENCODE (42_encoder.md R170 to R175) -/

/-- The sum of the bytes' values modulo 256, as R172 to R174 write the checksum byte. -/
theorem byteSum_eq_ofNat_mod (bs : List Byte) : byteSum bs = BitVec.ofNat 8 ((bs.map BitVec.toNat).sum % 256) := by
  rw [byteSum_eq_ofNat_sum]
  exact BitVec.eq_of_toNat_eq (by simp)

theorem answers_encodeFrame {s : State} {operand : List Byte} {e : Except EncodingCause (List Byte)}
    (h : encodeOperand s.params operand = e) : Answers (.encodeFrame operand) s (encodingResult e) :=
  answer_eq_next_iff.mpr (h ▸ rfl)

/-- An operand in R71's layout with a known variant code lays out a frame where its data has the bytes counted. -/
theorem checkOperand_layout {v c a ci n : Byte} {data : List Byte} (hv : v.toNat ≤ 3) (hlen : data.length = n.toNat) :
    checkOperand ([v, c, a, ci, n] ++ data) =
      if v = 0 then .ok .single
      else if v = 1 then .ok (.short c a)
      else if v = 2 then .ok (.control c a ci)
      else if maxData < n.toNat then .error .payloadTooLarge
      else .ok (.long c a ci data) :=
  (if_neg (Nat.not_lt.mpr hv)).trans (if_neg (not_not.mpr hlen))

theorem encodeOperand_ok {cfg : Params} {operand : List Byte} {f : Frame} (h : checkOperand operand = .ok f) :
    encodeOperand cfg operand = encodeWire cfg f := by
  rw [encodeOperand, h]

theorem encodeOperand_error {cfg : Params} {operand : List Byte} {cause : EncodingCause}
    (h : checkOperand operand = .error cause) : encodeOperand cfg operand = .error cause := by
  rw [encodeOperand, h]

/-- Settles O31: the operand lays out its variant's frame, and the 8-bit sums are the sums modulo 256. -/
theorem encodeWritesTheFrame : Obligations.EncodeWritesTheFrame := by
  intro s c a ci n data hlen
  have hcheck (v : Byte) (hv : v.toNat ≤ 3) := checkOperand_layout (c := c) (a := a) (ci := ci) hv hlen
  refine ⟨?single, ?short, ?control, fun hn => ?long⟩
  case single => exact answers_encodeFrame (encodeOperand_ok (hcheck 0 (by decide)))
  case short =>
    have hshort : c + a = BitVec.ofNat 8 ((c.toNat + a.toNat) % 256) := by simpa using byteSum_eq_ofNat_mod [c, a]
    have henc := answers_encodeFrame (s := s) (encodeOperand_ok (hcheck 1 (by decide)))
    rwa [encodeWire, encodeShort, hshort] at henc
  case control =>
    have hcontrol : c + a + ci = BitVec.ofNat 8 ((c.toNat + a.toNat + ci.toNat) % 256) := by
      simpa [add_assoc] using byteSum_eq_ofNat_mod [c, a, ci]
    have henc := answers_encodeFrame (s := s) (encodeOperand_ok (hcheck 2 (by decide)))
    rwa [encodeWire, encodeControl, hcontrol] at henc
  case long =>
    have hlong : c + a + ci + byteSum data =
        BitVec.ofNat 8 ((c.toNat + a.toNat + ci.toNat + (data.map BitVec.toNat).sum) % 256) := by
      simpa [add_assoc] using byteSum_eq_ofNat_mod (c :: a :: ci :: data)
    have hfit : ¬ maxData < data.length := Nat.not_lt.mpr (hlen.trans_le hn)
    have henc := answers_encodeFrame (s := s)
      (encodeOperand_ok ((hcheck 3 (by decide)).trans (if_neg (Nat.not_lt.mpr hn))))
    rwa [encodeWire, encodeLong, if_neg hfit, hlong, hlen] at henc

/-- A variant code above 3 fails the first check, whatever follows it. -/
theorem checkOperand_badVariant {v : Byte} (fields : List Byte) (hv : 3 < v.toNat) :
    checkOperand (v :: fields) = .error .badVariant := if_pos hv

/-- An operand without as many bytes as its byte 4 asks for fails the second check (notes/assumptions/12.md). -/
theorem checkOperand_badOperand {v : Byte} {fields : List Byte} (hv : v.toNat ≤ 3)
    (hcount : ∀ n : Byte, (v :: fields)[4]? = some n → (v :: fields).length ≠ 5 + n.toNat) :
    checkOperand (v :: fields) = .error .badOperand := by
  refine (if_neg (Nat.not_lt.mpr hv)).trans ?_
  split
  · rename_i c a ci n data
    exact if_pos fun hlen => hcount n rfl (by simp [hlen]; omega)
  · rfl

/-- An operand that has a byte 4, and as many bytes after it as that counts, has R71's layout. -/
theorem exists_layout {v n : Byte} {fields : List Byte} (hn : (v :: fields)[4]? = some n)
    (hlen : (v :: fields).length = 5 + n.toNat) :
    ∃ c a ci data, fields = c :: a :: ci :: n :: data ∧ data.length = n.toNat := by
  obtain ⟨c, a, ci, rest, rfl, hrest⟩ := exists_header_data (bs := fields) (n := n.toNat + 1)
    (by simp at hlen; omega)
  obtain ⟨n', data, rfl⟩ := List.exists_cons_of_length_eq_add_one hrest
  cases hn
  exact ⟨c, a, ci, data, rfl, Nat.succ.inj hrest⟩

/-- Settles O32: each check of R175 in its turn. -/
theorem encodeRejectsNonFrames : Obligations.EncodeRejectsNonFrames := by
  intro s operand v hv
  obtain ⟨fields, rfl⟩ := List.head?_eq_some_iff.mp (List.head?_eq_getElem?.trans hv)
  refine ⟨fun hvariant => ?_, fun hknown hcount => ?_, fun n hlong hn hlen hbig => ?_⟩
  · exact answers_encodeFrame (encodeOperand_error (checkOperand_badVariant fields hvariant))
  · exact answers_encodeFrame (encodeOperand_error (checkOperand_badOperand hknown hcount))
  · obtain ⟨c, a, ci, data, rfl, hdata⟩ := exists_layout hn hlen
    obtain rfl := (eq_three_iff v).mpr hlong
    have hcheck : checkOperand ([3, c, a, ci, n] ++ data) = .error .payloadTooLarge :=
      (checkOperand_layout le_rfl hdata).trans (if_pos hbig)
    exact answers_encodeFrame (encodeOperand_error hcheck)

/-! ### LOOPBACK (R177, 30_encoding.md R97) -/

section
variable {cfg : Params} {p q : Parser}

/-- A byte that records no error leaves LAST_ERR (10_state.md R28). -/
theorem Parser.pushByte_lastErr_eq {b : Byte} (h : p.pushByte cfg b = .ok q) (he : q.errEvent = false) :
    q.lastErr = p.lastErr := by
  obtain ⟨cause, rfl⟩ | ⟨f, rfl⟩ | ⟨hl, -⟩ := Parser.pushByte_cases h
  · cases he
  · rfl
  · exact hl

/-- Bytes that record no error leave LAST_ERR. -/
theorem Parser.pushBuf_lastErr_eq {bs : List Byte} {k errors k' : Nat}
    (h : p.pushBuf cfg bs k errors = .ok (k', errors, q)) : q.lastErr = p.lastErr := by
  induction bs generalizing p k with
  | nil => cases h; rfl
  | cons b bs ih =>
    obtain ⟨r, hb, ⟨-, -, herrors, rfl⟩ | ⟨-, hrest⟩⟩ := Parser.pushBuf_cons_cases h
    · exact Parser.pushByte_lastErr_eq hb (Bool.toNat_eq_zero.mp (by omega))
    · obtain ⟨-, herrors, -⟩ := Parser.pushBuf_counts hrest
      have he : r.errEvent = false := Bool.toNat_eq_zero.mp (by omega)
      rw [he] at hrest
      exact (ih hrest).trans (Parser.pushByte_lastErr_eq hb he)

/-- A retained frame is there only in EXPECT_START after PUSH_BUF, where it was so before (10_state.md R31). -/
theorem Parser.ReadyOnlyAtStart.pushBuf {bs : List Byte} {k errors k' errors' : Nat} (hp : p.ReadyOnlyAtStart)
    (h : p.pushBuf cfg bs k errors = .ok (k', errors', q)) : q.ReadyOnlyAtStart := by
  refine Parser.pushBuf_keeps (fun b p r _ hb hr => ?_) hp h
  obtain ⟨-, hnone, -⟩ | ⟨-, -, hs⟩ | ⟨-, hnone⟩ := (Parser.pushByte_effect hb).flags
  · exact absurd (hr.symm.trans hnone) nofun
  · exact hs
  · exact absurd (hr.symm.trans hnone) nofun

end

@[simp] theorem thenRun_next (s : State) (k : State → Host.Outcome State Fault Refusal) :
    thenRun (.next s) k = k s := rfl

@[simp] theorem thenRun_done (first : Host.Outcome State Fault Refusal) : thenRun first .next = first := by
  cases first <;> rfl

@[simp] theorem feedLoop_nil (fuel : Nat) (s : State) : feedLoop fuel [] s = .next s := by
  cases fuel <;> rfl

/-- Where PUSH_BUF consumes the buffer and completes a frame, FEED is that command and one GET_FRAME. -/
theorem feed_one_frame {s : State} {w : List Byte} {errors : Nat} {q : Parser} (hw : w ≠ [])
    (hq : s.parser.pushBuf s.params w 0 0 = .ok (w.length, errors, q)) (hr : q.frameReady = true) :
    feed w s =
      execGetFrame { s with parser := q, results := s.results ++ [.pushed w.length errors q.status] } := by
  obtain ⟨b, bs, rfl⟩ := List.exists_cons_of_ne_nil hw
  obtain ⟨-, hready, -⟩ := statusWordFields q
  rw [hr] at hready
  simp only [feed, List.length_cons, feedLoop, if_neg hw, exec_pushBuf_ok hq, thenRun_next, lastPush,
    List.getLast?_concat, hready]
  simp [exec]

/-- The frame that comes back is a legal one where the data fits. -/
theorem onTheWire_legal {f : Frame} (hfit : ∀ c a ci data, f = .long c a ci data → data.length ≤ maxData) :
    Frame.Legal (onTheWire f) := by
  cases f with
  | single | short | control => trivial
  | long c a ci data =>
    cases data with
    | nil => trivial
    | cons b bs => exact ⟨Nat.succ_pos _, hfit c a ci _ rfl⟩

/-- A long frame without data is written as the control frame is (R174). -/
theorem encodeWire_onTheWire (cfg : Params) (f : Frame) : encodeWire cfg (onTheWire f) = encodeWire cfg f := by
  unfold onTheWire
  split
  · simp [encodeWire, encodeControl, encodeLong]
  · rfl

/-- ENCODE of a frame whose data fits answers the bytes of the frame that comes back. -/
theorem encodeOperand_frameLayout (cfg : Params) {f : Frame}
    (hfit : ∀ c a ci data, f = .long c a ci data → data.length ≤ maxData) :
    encodeOperand cfg (frameLayout f) = encodeWire cfg (onTheWire f) := by
  rw [encodeWire_onTheWire]
  refine encodeOperand_ok ?_
  cases f with
  | single | short | control => rfl
  | long c a ci data =>
    have hlen := hfit c a ci data rfl
    rw [checkOperand_frameLayout_long, if_neg (by rw [maxData] at hlen; omega), if_neg (Nat.not_lt.mpr hlen)]

/-- A legal frame has wire bytes (R170). -/
theorem exists_encodeWire_of_legal (cfg : Params) {f : Frame} (hf : Frame.Legal f) :
    ∃ w, encodeWire cfg f = .ok w := by
  cases f with
  | single | short | control => exact ⟨_, rfl⟩
  | long c a ci data =>
    obtain ⟨-, hfit⟩ := hf
    exact ⟨_, if_neg (Nat.not_lt.mpr hfit)⟩

/-- FEED of a legal frame's bytes emits that frame, and records no error. -/
theorem feed_encodeWire {s : State} {f : Frame} {w : List Byte} (hs : s.parser.st = .expectStart)
    (hf : Frame.Legal f) (hw : encodeWire s.params f = .ok w) :
    ∃ t, feed w s = .next t ∧ t.framesOut = s.framesOut ++ [f] ∧ t.parser.st = .expectStart ∧
      t.parser.lastErr = s.parser.lastErr := by
  obtain ⟨q, hq, hr, rfl⟩ := Parser.pushBuf_encodeWire hs hf hw 0 0
  rw [Nat.zero_add] at hq
  have hstart : s.parser.ReadyOnlyAtStart := fun _ => hs
  have hst : q.st = .expectStart := hstart.pushBuf hq hr
  have hlast : q.lastErr = s.parser.lastErr := Parser.pushBuf_lastErr_eq hq
  exact ⟨_, (feed_one_frame (encodeWire_ne_nil hw) hq hr).trans (execGetFrame_ready hr), rfl, hst, hlast⟩

/-- Settles O34: ENCODE answers the bytes of a legal frame, and FEED of these emits it. -/
theorem loopbackDeliversTheFrame : Obligations.LoopbackDeliversTheFrame := by
  intro s f hs hfit
  have hlegal := onTheWire_legal hfit
  obtain ⟨w, hw⟩ := exists_encodeWire_of_legal s.params hlegal
  have henc : Answers (.encodeFrame (frameLayout f)) s (.bytes w) :=
    answers_encodeFrame ((encodeOperand_frameLayout s.params hfit).trans hw)
  have hloop : loopback f s = feed w { s with results := s.results ++ [.bytes w] } := by
    rw [loopback, henc, thenRun_next, lastBytes, List.getLast?_concat]
  rw [hloop]
  exact feed_encodeWire (s := { s with results := s.results ++ [.bytes w] }) hs hlegal hw

/-! ### ENCODE_PAYLOAD (R178, R179, R181) -/

/-- The bytes written do not depend on any derived field. -/
theorem payloadBytes_wireFields (cfg : Params) (r : UserDataResponse) :
    payloadBytes cfg (wireFields r) = payloadBytes cfg r := by
  have hheader : headerBytes (wireFields r).header = headerBytes r.header := by
    cases h : r.header <;> simp [wireFields, h, headerBytes]
  have hitems : itemsBytes cfg (wireFields r).items = itemsBytes cfg r.items := by
    simp only [itemsBytes, wireFields, List.flatMap_map]
    refine List.flatMap_congr fun it _ => ?_
    cases it <;> rfl
  rw [payloadBytes, hheader, hitems]
  rfl

/-- ENCODE_PAYLOAD answers the payload's bytes where they fit a frame. -/
theorem answers_encodePayload {s : State} {r : UserDataResponse} {bs : List Byte}
    (hbytes : payloadBytes s.params r = bs) (hfit : bs.length ≤ maxData) : Answers (.encodePayload r) s (.bytes bs) := by
  subst hbytes
  exact answer_eq_next_iff.mpr (encodingResult_eq_bytes_iff.mpr (if_neg (Nat.not_lt.mpr hfit)))

/-- Settles O38: the length check on the bytes written, which are the same without the derived fields. -/
theorem encodePayloadWritesTheWireFields : Obligations.EncodePayloadWritesTheWireFields := by
  intro s r
  refine ⟨fun hfit => ?_, fun hbig => ?_, ?_⟩
  · exact answers_encodePayload rfl hfit
  · exact answer_eq_next_iff.mpr (congrArg encodingResult (if_pos hbig))
  · change execEncodePayload _ s = execEncodePayload _ s
    simp only [execEncodePayload, encodeResponse, payloadBytes_wireFields]

/-! ### What one byte does to the item in progress (43_records.md R211 to R224) -/

/-- `e` is `d` with more bytes of the block read for the item in progress: the item still begins where it did, no item
is complete yet, and what has moved from the bytes left to those taken has moved the offset on as far. -/
structure Drd.Reads (d e : Drd) : Prop where
  start : e.start = d.start
  items : e.items = d.items
  bytes : e.taken ++ e.rest = d.taken ++ d.rest
  left : e.rest.length ≤ d.rest.length
  pos : e.pos + e.rest.length = d.pos + d.rest.length

/-- The bytes of a record up to the end of its VIFE chain (42_encoder.md R179). -/
def Drd.chainBytes (cfg : Params) (d : Drd) : List Byte :=
  [d.dif] ++ d.dife ++ [d.vif] ++ (if cfg.plainTextPos = .afterVif then plainTextBytes (d.recordOf cfg []) else []) ++
    d.vife

/-- The bytes read of the item in progress are those of its parts read so far, and a chain that has not begun is empty;
at the end of the loop nothing is left. -/
def Drd.PartsRead (cfg : Params) (d : Drd) : Prop :=
  match d.phase with
  | .idle => False
  | .dif => d.taken = [] ∧ d.dife = [] ∧ d.vife = []
  | .dife => d.taken = d.dif :: d.dife ∧ d.vife = []
  | .vif => d.taken = d.dif :: d.dife ∧ d.vife = []
  | .vife => d.taken = d.chainBytes cfg
  | .lvar => d.taken = recordBytes cfg (d.recordOf cfg [])
  | .done => d.taken = [] ∧ d.rest = []

/-- What the decoder can do once it has read a byte: it goes on with the item, stops, takes the rest as manufacturer
data, or completes an item that covers the bytes read. -/
inductive Drd.Turn (cfg : Params) (d : Drd) : Drd → Prop
  | goesOn {e : Drd} (hd : d.Reads e) (he : e.PartsRead cfg) : Turn cfg d e
  | stops {e : Drd} (hd : d.Reads e) (cause : UnsupportedCause) : Turn cfg d (e.stop cause)
  | manufData {e : Drd} (hd : d.Reads e) (x : Byte) (hx : e.taken = [x]) : Turn cfg d (e.manufData x)
  | completes {e : Drd} (hd : d.Reads e) (it : Item) (errors : List (UnsupportedCause × Nat))
      (hbytes : itemBytes cfg it = e.taken) (hoffset : itemOffset it = e.start) :
    Turn cfg d { e.emit it with errors := errors }

section
variable {cfg : Params} {d e f : Drd}

theorem Drd.Reads.refl : d.Reads d := ⟨rfl, rfl, rfl, le_rfl, rfl⟩

theorem Drd.Reads.trans (h : d.Reads e) (h' : e.Reads f) : d.Reads f :=
  ⟨h'.start.trans h.start, h'.items.trans h.items, h'.bytes.trans h.bytes, h'.left.trans h.left, h'.pos.trans h.pos⟩

theorem Drd.Reads.allBytes (h : d.Reads e) : e.allBytes cfg = d.allBytes cfg := by
  rw [Drd.allBytes, Drd.allBytes, List.append_assoc, List.append_assoc, h.items, h.bytes]

/-- A turn may follow bytes that have been read before. -/
theorem Drd.Reads.turn (h : d.Reads e) (h' : e.Turn cfg f) : d.Turn cfg f := by
  cases h' with
  | goesOn hd he => exact .goesOn (h.trans hd) he
  | stops hd cause => exact .stops (h.trans hd) cause
  | manufData hd x hx => exact .manufData (h.trans hd) x hx
  | completes hd it errors hbytes hoffset => exact .completes (h.trans hd) it errors hbytes hoffset

/-- No turn loses a byte. -/
theorem Drd.Turn.allBytes (h : d.Turn cfg e) : e.allBytes cfg = d.allBytes cfg := by
  cases h with
  | goesOn hd => exact hd.allBytes
  | stops hd cause => exact (Drd.stop_allBytes cfg _ cause).trans hd.allBytes
  | manufData hd x hx => exact (Drd.manufData_allBytes cfg _ x hx).trans hd.allBytes
  | completes hd it errors hbytes => exact (Drd.emit_allBytes cfg _ it hbytes).trans hd.allBytes

theorem Drd.Turn.partsRead (h : d.Turn cfg e) : e.PartsRead cfg := by
  cases h with
  | goesOn _ he => exact he
  | stops | manufData => exact ⟨rfl, rfl⟩
  | completes => exact ⟨rfl, rfl, rfl⟩

theorem Drd.Turn.left (h : d.Turn cfg e) : e.rest.length ≤ d.rest.length := by
  cases h with
  | goesOn hd | completes hd => exact hd.left
  | stops | manufData => exact Nat.zero_le _

/-! ### The value of a record (R218, R219, R222) -/

/-- A record's value bytes are its last ones (42_encoder.md R179). -/
theorem recordBytes_append_value (before vb : List Byte) :
    recordBytes cfg (d.recordOf cfg (before ++ vb)) = recordBytes cfg (d.recordOf cfg before) ++ vb :=
  (List.append_assoc ..).symm

/-- The bytes of a record are its chain's, the plain text's where that follows, and the value's. -/
theorem recordBytes_of_chain :
    recordBytes cfg (d.recordOf cfg []) =
      d.chainBytes cfg ++ if cfg.plainTextPos = .afterVifeChain then plainTextBytes (d.recordOf cfg []) else [] :=
  List.append_nil _

theorem Drd.finish_turn {vb : List Byte} (h : d.taken = recordBytes cfg (d.recordOf cfg vb)) :
    d.Turn cfg (d.finish cfg vb) := by
  unfold Drd.finish
  split
  · exact .completes .refl _ _ h.symm rfl
  · exact .completes .refl _ _ rfl rfl

theorem Drd.takeValue_turn {before : List Byte} (n : Nat) (h : d.taken = recordBytes cfg (d.recordOf cfg before)) :
    d.Turn cfg (d.takeValue cfg before n) := by
  by_cases hn : d.rest.length < n
  · rw [Drd.takeValue_short cfg d before n hn]
    exact .stops .refl _
  · have hn' := Nat.not_lt.mp hn
    rw [Drd.takeValue_complete cfg d before n hn']
    have hskip : d.Reads (d.skip n) := ⟨rfl, rfl, by simp, by simp, by simp; omega⟩
    refine hskip.turn (Drd.finish_turn ?_)
    have hvalue := recordBytes_append_value (cfg := cfg) (d := d) before (d.rest.take n)
    rw [Drd.skip_taken, h]
    exact hvalue.symm

theorem Drd.toValue_turn (h : d.taken = recordBytes cfg (d.recordOf cfg [])) : d.Turn cfg (d.toValue cfg) := by
  unfold Drd.toValue
  split
  · exact .goesOn ⟨rfl, rfl, rfl, le_rfl, rfl⟩ h
  · exact Drd.takeValue_turn _ h

/-! ### The plain text and the VIFE chain (R216, R217) -/

/-- The plain text read is written as its length byte and its characters (42_encoder.md R179); no other part of the
record changes. -/
theorem Drd.plainText_reads (h : d.plainText = some e) :
    d.Reads e ∧ e.taken = d.taken ++ plainTextBytes (e.recordOf cfg []) ∧
      e = { d with text := e.text, taken := e.taken, rest := e.rest, pos := e.pos } := by
  by_cases hv : vifValue d.vif = 0x7C#7
  · cases hr : d.rest with
    | nil => cases (Drd.plainText_truncated d hv (.inl hr)).symm.trans h
    | cons k more =>
      by_cases hk : more.length < k.toNat
      · cases (Drd.plainText_truncated d hv (.inr ⟨k, more, hr, hk⟩)).symm.trans h
      · have hchars : (more.take k.toNat).length = k.toNat := List.length_take_of_le (Nat.not_lt.mp hk)
        rw [← List.take_append_drop k.toNat more] at hr
        cases (Drd.plainText_present d hv k _ _ hr hchars).symm.trans h
        refine ⟨⟨rfl, rfl, by simp [hr], by simp [hr]; omega, by simp [hr]; omega⟩, ?_, rfl⟩
        simp [plainTextBytes, Drd.recordOf, hv, Nat.min_eq_left (Nat.not_lt.mp hk)]
  · cases (Drd.plainText_absent d hv).symm.trans h
    exact ⟨.refl, by simp [plainTextBytes, Drd.recordOf, hv], rfl⟩

theorem Drd.endChain_turn (h : d.taken = d.chainBytes cfg) : d.Turn cfg (d.endChain cfg) := by
  unfold Drd.endChain
  split
  · rename_i hpos
    split
    · exact .stops .refl _
    · rename_i e he
      obtain ⟨hreads, htaken, hparts⟩ := Drd.plainText_reads (cfg := cfg) he
      have hchain : e.chainBytes cfg = d.chainBytes cfg := by rw [hparts]; simp [Drd.chainBytes, hpos]
      refine hreads.turn (Drd.toValue_turn ?_)
      rw [recordBytes_of_chain, if_pos hpos, hchain, htaken, h]
  · rename_i hpos
    exact Drd.toValue_turn (h.trans (by rw [recordBytes_of_chain, if_neg hpos, List.append_nil]))

theorem Drd.afterVif_turn (ext : Bool) (h : d.taken = d.chainBytes cfg) : d.Turn cfg (d.afterVif cfg ext) := by
  cases ext with
  | true => exact .goesOn ⟨rfl, rfl, rfl, le_rfl, rfl⟩ h
  | false => exact Drd.endChain_turn h

/-! ### The byte read, by its place -/

theorem Drd.readDif_turn (x : Byte) (ht : d.taken = []) (hdife : d.dife = []) (hvife : d.vife = []) :
    (d.feed x).Turn cfg (d.readDif cfg x) := by
  have htaken : (d.feed x).taken = [x] := by simp [ht]
  unfold Drd.readDif
  split_ifs with hfill hmanuf hglobal
  · exact .completes .refl _ _ (by rw [htaken, hfill]; rfl) rfl
  · exact .manufData .refl x htaken
  · exact .completes .refl _ _ (by rw [htaken, hglobal]; rfl) rfl
  · exact .stops .refl _
  · exact .stops .refl _
  · exact .goesOn ⟨rfl, rfl, rfl, le_rfl, rfl⟩ (by simp [Drd.PartsRead, ht, hdife, hvife])
  · exact .goesOn ⟨rfl, rfl, rfl, le_rfl, rfl⟩ (by simp [Drd.PartsRead, ht, hdife, hvife])

theorem Drd.readDife_turn (x : Byte) (ht : d.taken = d.dif :: d.dife) (hvife : d.vife = []) :
    (d.feed x).Turn cfg (d.readDife cfg x) := by
  unfold Drd.readDife
  split_ifs
  · exact .stops .refl _
  · exact .goesOn ⟨rfl, rfl, rfl, le_rfl, rfl⟩ (by simp [Drd.PartsRead, ht, hvife])
  · exact .goesOn ⟨rfl, rfl, rfl, le_rfl, rfl⟩ (by simp [Drd.PartsRead, ht, hvife])

theorem Drd.readVif_turn (x : Byte) (ht : d.taken = d.dif :: d.dife) (hvife : d.vife = []) :
    (d.feed x).Turn cfg (d.readVif cfg x) := by
  have hvif : (d.feed x).Reads { d.feed x with vif := x } := ⟨rfl, rfl, rfl, le_rfl, rfl⟩
  unfold Drd.readVif
  refine hvif.turn ?_
  dsimp only
  split
  · rename_i hpos
    split
    · exact .stops .refl _
    · rename_i e he
      obtain ⟨hreads, htaken, hparts⟩ := Drd.plainText_reads (cfg := cfg) he
      refine hreads.turn (Drd.afterVif_turn _ ?_)
      rw [htaken, hparts]
      simp [Drd.chainBytes, hpos, ht, hvife]
  · rename_i hpos
    exact Drd.afterVif_turn _ (by simp [Drd.chainBytes, hpos, ht, hvife])

theorem Drd.readVife_turn (x : Byte) (ht : d.taken = d.chainBytes cfg) :
    (d.feed x).Turn cfg (d.readVife cfg x) := by
  have hvife : (d.feed x).Reads { d.feed x with vife := d.vife ++ [x] } := ⟨rfl, rfl, rfl, le_rfl, rfl⟩
  unfold Drd.readVife
  dsimp only
  split
  · exact .stops .refl _
  · refine hvife.turn (Drd.afterVif_turn _ ?_)
    rw [Drd.feed_taken, ht]
    exact List.append_assoc ..

theorem Drd.readLvar_turn (x : Byte) (ht : d.taken = recordBytes cfg (d.recordOf cfg [])) :
    (d.feed x).Turn cfg (d.readLvar cfg x) := by
  unfold Drd.readLvar
  dsimp only
  split
  · exact .stops .refl _
  · refine Drd.takeValue_turn _ ?_
    rw [Drd.feed_taken, ht]
    exact (recordBytes_append_value [] [x]).symm

/-- Where a byte is left, the loop's next turn reads it. -/
theorem Drd.next_turn {x : Byte} {more : List Byte} (h : d.PartsRead cfg) (hr : d.rest = x :: more) :
    ({ d with rest := more }.feed x).Turn cfg (d.next cfg) := by
  obtain ⟨phase, pos, rest, start, taken, dif, dife, vif, text, vife, items, errors⟩ := d
  obtain rfl : rest = x :: more := hr
  cases phase with
  | idle => exact h.elim
  | dif =>
    obtain ⟨htaken, hdife, hvife⟩ := h
    exact Drd.readDif_turn x htaken hdife hvife
  | dife =>
    obtain ⟨htaken, hvife⟩ := h
    exact Drd.readDife_turn x htaken hvife
  | vif =>
    obtain ⟨htaken, hvife⟩ := h
    exact Drd.readVif_turn x htaken hvife
  | vife => exact Drd.readVife_turn x h
  | lvar => exact Drd.readLvar_turn x h
  | done =>
    obtain ⟨-, hrest⟩ := h
    cases hrest

/-- Where none is left, it ends the loop and loses no byte. -/
theorem Drd.next_ends (h : d.PartsRead cfg) (hr : d.rest = []) :
    (d.next cfg).phase = .done ∧ (d.next cfg).PartsRead cfg ∧ (d.next cfg).allBytes cfg = d.allBytes cfg := by
  obtain ⟨phase, pos, rest, start, taken, dif, dife, vif, text, vife, items, errors⟩ := d
  obtain rfl : rest = [] := hr
  cases phase with
  | idle => exact h.elim
  | dif =>
    obtain ⟨htaken, -⟩ := h
    exact ⟨rfl, ⟨htaken, rfl⟩, rfl⟩
  | done => exact ⟨rfl, h, rfl⟩
  | dife | vif | vife | lvar => exact ⟨rfl, ⟨rfl, rfl⟩, Drd.stop_allBytes cfg _ _⟩

/-! ### The loop -/

/-- One turn more than bytes are left ends the loop, and no byte is lost. -/
theorem Drd.run_ends {n : Nat} (h : d.PartsRead cfg) (hn : d.rest.length ≤ n) :
    (Drd.run cfg (n + 1) d).phase = .done ∧ (Drd.run cfg (n + 1) d).PartsRead cfg ∧
      (Drd.run cfg (n + 1) d).allBytes cfg = d.allBytes cfg := by
  induction n generalizing d with
  | zero => exact Drd.next_ends h (List.length_eq_zero_iff.mp (Nat.le_zero.mp hn))
  | succ n ih =>
    rw [Drd.run]
    cases hr : d.rest with
    | nil =>
      obtain ⟨hdone, hparts, hbytes⟩ := Drd.next_ends h hr
      rw [Drd.run_done cfg _ _ hdone]
      exact ⟨hdone, hparts, hbytes⟩
    | cons x more =>
      have hturn := Drd.next_turn h hr
      obtain ⟨hdone, hparts, hbytes⟩ := ih hturn.partsRead (hturn.left.trans (by simpa [hr] using hn))
      exact ⟨hdone, hparts, hbytes.trans (hturn.allBytes.trans (Drd.feed_allBytes cfg d x more hr))⟩

/-- The items of a decoded block are written as the block's bytes (R225, 42_encoder.md R180). -/
theorem Drd.itemsBytes_decodeFrom (data : List Byte) (off : Nat) :
    itemsBytes cfg (Drd.decodeFrom cfg data off).items = data.drop off := by
  obtain ⟨hdone, hparts, hbytes⟩ := Drd.run_ends (cfg := cfg) (d := Drd.opening data off) (n := data.length)
    ⟨rfl, rfl, rfl⟩ (by simp [Drd.opening])
  rw [Drd.PartsRead, hdone] at hparts
  obtain ⟨htaken, hrest⟩ := hparts
  rwa [Drd.opening_allBytes, Drd.allBytes, htaken, hrest, List.append_nil, List.append_nil] at hbytes

end

/-! ### Payload and telegram round trips (42_encoder.md R180, R183) -/

/-- DECODE_PAYLOAD answers a response with its CI and, in header, items and raw tail, every byte of its data. -/
theorem exec_decodePayload_keeps_bytes (s : State) (ci : Byte) (data : List Byte) :
    ∃ r, exec (.decodePayload ci data) s =
        .next { s with drd := Drd.idle, results := s.results ++ [.response r] } ∧
      r.ci = ci ∧ payloadBytes s.params r = data := by
  change ∃ r, execDecodePayload ci data s = _ ∧ _
  unfold execDecodePayload
  split
  · exact ⟨_, rfl, rfl, rfl⟩
  · rename_i kind _
    split
    · exact ⟨_, rfl, rfl, rfl⟩
    · rename_i hl
      refine ⟨_, rfl, rfl, ?_⟩
      have hheader := headerBytes_parseHeader kind (data.take kind.length)
        (List.length_take_of_le (Nat.not_lt.mp hl))
      simp [payloadBytes, udr, hheader, Drd.itemsBytes_decodeFrom]

/-- Settles O39: the decoder loses no byte, so the response's bytes are the data. -/
theorem payloadRoundTrip : Obligations.PayloadRoundTrip := by
  intro s ci data hlen
  obtain ⟨r, hr, -, hbytes⟩ := exec_decodePayload_keeps_bytes s ci data
  exact ⟨_, r, hr, rfl, answers_encodePayload hbytes hlen⟩

/-- Settles O40: the frame is a legal one and `w` its wire bytes, and its data survives the payload round trip. -/
theorem telegramReencodes : Obligations.TelegramReencodes := by
  intro s w c a ci data hs hw
  obtain ⟨hlegal, henc⟩ := (acceptanceIsExact s w _ hs).mp hw
  have ⟨_, hfit⟩ := hlegal
  obtain ⟨r, hr, rfl, hbytes⟩ := exec_decodePayload_keeps_bytes s ci data
  have hwire := (encodesTo_iff hlegal).mp henc
  exact ⟨_, _, r, data, hr, rfl, answers_encodePayload hbytes hfit, (encodesTo_iff hlegal).mpr hwire, rfl⟩

end Sys2Proof.Machine
end

section
/-! PROOFS. The statements of 43_records.md: the partition law (R225), the refinement of the item loop (R209), what
DECODE_PAYLOAD answers (R200, R204 to R208), and the rows of a data block (R211 to R222). -/

namespace Sys2Proof.Machine

open Sys2Proof.Config Sys2Proof.Claims

/-! ### The branches of the operations that read a byte (R211 to R218) -/

/-- The VIF byte `x` has been read. -/
def Drd.feedVif (x : Byte) (d : Drd) : Drd := { d.feed x with vif := x }

section
variable {cfg : Params} {d e : Drd} {x : Byte}

/-- Under AFTER_VIF a VIF whose plain text is cut short stops the decoder. -/
theorem Drd.readVif_stops (hpos : cfg.plainTextPos = .afterVif) (htext : (d.feedVif x).plainText = none) :
    d.readVif cfg x = (d.feedVif x).stop .truncated := by
  rw [Drd.feedVif] at htext ⊢
  rw [Drd.readVif, if_pos hpos, htext]

/-- Under AFTER_VIF a VIF is followed by its plain text, then by the VIFE chain or its end. -/
theorem Drd.readVif_text (hpos : cfg.plainTextPos = .afterVif) (htext : (d.feedVif x).plainText = some e) :
    d.readVif cfg x = e.afterVif cfg (extBit x) := by
  rw [Drd.feedVif] at htext
  rw [Drd.readVif, if_pos hpos, htext]

/-- Under AFTER_VIFE_CHAIN a VIF is followed by the VIFE chain or its end. -/
theorem Drd.readVif_noText (hpos : cfg.plainTextPos ≠ .afterVif) :
    d.readVif cfg x = (d.feedVif x).afterVif cfg (extBit x) := if_neg hpos

theorem Drd.endChain_stops (hpos : cfg.plainTextPos = .afterVifeChain) (htext : d.plainText = none) :
    d.endChain cfg = d.stop .truncated := by
  simp [Drd.endChain, hpos, htext]

theorem Drd.endChain_text (hpos : cfg.plainTextPos = .afterVifeChain) (htext : d.plainText = some e) :
    d.endChain cfg = e.toValue cfg := by
  simp [Drd.endChain, hpos, htext]

theorem Drd.endChain_noText (hpos : cfg.plainTextPos ≠ .afterVifeChain) : d.endChain cfg = d.toValue cfg := if_neg hpos

/-- A VIFE beyond P_MAX_VIFE stops the decoder (R217, R215). -/
theorem Drd.readVife_overflow (hmax : d.vife.length = cfg.maxVife) :
    d.readVife cfg x = (d.feed x).stop .vifeOverflow := if_pos hmax

theorem Drd.readVife_joins (hmax : d.vife.length ≠ cfg.maxVife) :
    d.readVife cfg x = Drd.afterVif cfg (extBit x) { d.feed x with vife := d.vife ++ [x] } := if_neg hmax

/-- A DIFE beyond P_MAX_DIFE stops the decoder (R215). -/
theorem Drd.readDife_overflow (hmax : d.dife.length = cfg.maxDife) :
    d.readDife cfg x = (d.feed x).stop .difeOverflow := if_pos hmax

theorem Drd.readDife_joins (hmax : d.dife.length ≠ cfg.maxDife) :
    d.readDife cfg x = { d.feed x with dife := d.dife ++ [x], phase := if extBit x then .dife else .vif } := if_neg hmax

/-- A reserved LVAR stops the decoder (44_values.md R261). -/
theorem Drd.readLvar_reserved (h : lvarReserved cfg x = true) :
    d.readLvar cfg x = (d.feed x).stop .lvarReserved := if_pos h

theorem Drd.readLvar_value (h : lvarReserved cfg x = false) :
    d.readLvar cfg x = (d.feed x).takeValue cfg [x] (lvarCount x) := if_neg (by simp [h])

/-- A DIF with a data field opens a record (R209). -/
theorem Drd.readDif_record (hspecial : x ≠ 0x2F#8 ∧ ¬ (x = 0x0F#8 ∨ x = 0x1F#8) ∧ x ≠ 0x7F#8)
    (hfield : dataField x ≠ 0xF#4) (hbcd : ¬ (dataField x = 0xE#4 ∧ cfg.bcd12 = false)) :
    d.readDif cfg x = { d.feed x with dif := x, phase := if extBit x then .dife else .vif } := by
  obtain ⟨hfill, hmanuf, hglobal⟩ := hspecial
  simp only [Drd.readDif, if_neg hfill, if_neg hmanuf, if_neg hglobal, if_neg hfield, if_neg hbcd]

/-- A DIF of no known length stops the decoder (R214, 44_values.md R257). -/
theorem Drd.readDif_reserved (hspecial : x ≠ 0x2F#8 ∧ ¬ (x = 0x0F#8 ∨ x = 0x1F#8) ∧ x ≠ 0x7F#8)
    (hfield : dataField x = 0xF#4 ∨ (dataField x = 0xE#4 ∧ cfg.bcd12 = false)) :
    d.readDif cfg x = (d.feed x).stop .reservedDif := by
  obtain ⟨hfill, hmanuf, hglobal⟩ := hspecial
  simp only [Drd.readDif, if_neg hfill, if_neg hmanuf, if_neg hglobal]
  obtain hf | he := hfield
  · rw [if_pos hf]
  · rw [if_pos he, ite_self]

end

/-! ### The partition law (R225) -/

section
variable {cfg : Params} {d e : Drd} {off : Nat}

/-- Items stay contiguous exactly when the next one begins where they end. -/
theorem contiguous_concat (items : List Item) (it : Item) :
    Contiguous cfg off (items ++ [it]) ↔
      Contiguous cfg off items ∧ itemOffset it = off + (itemsBytes cfg items).length := by
  induction items generalizing off with
  | nil => simp [Contiguous]
  | cons first more ih =>
    simp [Contiguous, ih, itemLength, itemsBytes, and_assoc, Nat.add_assoc]

/-- The items so far are contiguous from `off` on, and while the loop runs the next one begins where they end, the
decoder's offset being that of the byte after those read for it. -/
def Drd.InOrder (cfg : Params) (off : Nat) (d : Drd) : Prop :=
  Contiguous cfg off d.items ∧
    (d.phase ≠ .done → d.start = off + (itemsBytes cfg d.items).length ∧ d.pos = d.start + d.taken.length)

/-- An item that begins where the decoder says keeps the items contiguous. -/
theorem Drd.InOrder.concat (h : d.InOrder cfg off) (hp : d.phase ≠ .done) {it : Item}
    (ho : itemOffset it = d.start) : Contiguous cfg off (d.items ++ [it]) := by
  obtain ⟨hitems, hrun⟩ := h
  obtain ⟨hstart, -⟩ := hrun hp
  exact (contiguous_concat _ _).mpr ⟨hitems, ho.trans hstart⟩

theorem Drd.InOrder.feed {x : Byte} {more : List Byte} (h : d.InOrder cfg off) :
    ({ d with rest := more }.feed x).InOrder cfg off := by
  obtain ⟨hitems, hrun⟩ := h
  refine ⟨hitems, fun hp => ?_⟩
  obtain ⟨hstart, hpos⟩ := hrun hp
  exact ⟨hstart, by simp [hpos, Nat.add_assoc]⟩

/-- Reading on for the item in progress moves the offset as far as the bytes read. -/
theorem Drd.Reads.inOrder (hd : d.Reads e) (h : d.InOrder cfg off) (hp : d.phase ≠ .done) :
    Contiguous cfg off e.items ∧ e.start = off + (itemsBytes cfg e.items).length ∧
      e.pos = e.start + e.taken.length := by
  obtain ⟨hitems, hrun⟩ := h
  obtain ⟨hstart, hpos⟩ := hrun hp
  have hlen := congrArg List.length hd.bytes
  have hmoved := hd.pos
  rw [List.length_append, List.length_append] at hlen
  exact ⟨hd.items ▸ hitems, by rw [hd.start, hd.items, hstart], by rw [hd.start]; omega⟩

/-- Every turn leaves the items in order. -/
theorem Drd.Turn.inOrder (ht : d.Turn cfg e) (h : d.InOrder cfg off) (hp : d.phase ≠ .done) : e.InOrder cfg off := by
  cases ht with
  | goesOn hd he =>
    obtain ⟨hitems, hrun⟩ := hd.inOrder h hp
    exact ⟨hitems, fun _ => hrun⟩
  | stops hd cause =>
    obtain ⟨hitems, hstart, -⟩ := hd.inOrder h hp
    exact ⟨(contiguous_concat _ _).mpr ⟨hitems, hstart⟩, fun hn => absurd rfl hn⟩
  | manufData hd x hx =>
    obtain ⟨hitems, hstart, -⟩ := hd.inOrder h hp
    exact ⟨(contiguous_concat _ _).mpr ⟨hitems, hstart⟩, fun hn => absurd rfl hn⟩
  | completes hd it errors hbytes hoffset =>
    obtain ⟨hitems, hstart, hpos⟩ := hd.inOrder h hp
    refine ⟨(contiguous_concat _ _).mpr ⟨hitems, hoffset.trans hstart⟩, fun _ => ⟨?_, rfl⟩⟩
    simp [hbytes, hpos, hstart, Nat.add_assoc]

/-- Where no byte is left the loop ends, and the bytes read for an unfinished item are its last one (R223). -/
theorem Drd.next_inOrder_of_nil (h : d.InOrder cfg off) (hparts : d.PartsRead cfg) (hr : d.rest = []) :
    (d.next cfg).InOrder cfg off := by
  obtain ⟨phase, pos, rest, start, taken, dif, dife, vif, text, vife, items, errors⟩ := d
  obtain rfl : rest = [] := hr
  have hends {t : Drd} (ht : t.phase = .done) (hc : Contiguous cfg off t.items) : t.InOrder cfg off :=
    ⟨hc, fun hn => absurd ht hn⟩
  cases phase with
  | idle => exact hparts.elim
  | dif => exact hends rfl h.1
  | done => exact h
  | dife | vif | vife | lvar => exact hends rfl (h.concat nofun rfl)

/-- One turn of the loop keeps the items in order. -/
theorem Drd.next_inOrder (h : d.InOrder cfg off) (hparts : d.PartsRead cfg) : (d.next cfg).InOrder cfg off := by
  cases hr : d.rest with
  | nil => exact Drd.next_inOrder_of_nil h hparts hr
  | cons x more =>
    refine (Drd.next_turn hparts hr).inOrder h.feed fun hdone => ?_
    rw [Drd.PartsRead, show d.phase = .done from hdone] at hparts
    obtain ⟨-, hnil⟩ := hparts
    exact absurd (hnil.symm.trans hr) (List.cons_ne_nil _ _).symm

theorem Drd.next_partsRead (h : d.PartsRead cfg) : (d.next cfg).PartsRead cfg := by
  cases hr : d.rest with
  | nil =>
    obtain ⟨-, hparts, -⟩ := Drd.next_ends h hr
    exact hparts
  | cons x more => exact (Drd.next_turn h hr).partsRead

theorem Drd.run_inOrder (n : Nat) (h : d.InOrder cfg off) (hparts : d.PartsRead cfg) :
    (Drd.run cfg n d).InOrder cfg off := by
  induction n generalizing d with
  | zero => exact h
  | succ n ih => exact ih (Drd.next_inOrder h hparts) (Drd.next_partsRead hparts)

end

/-- Settles O41: every turn of the loop keeps the items in order and loses no byte. -/
theorem itemsPartitionTheBlock : Obligations.ItemsPartitionTheBlock := by
  intro s data off _
  have hopening : (Drd.opening data off).InOrder s.params off := ⟨trivial, fun _ => ⟨rfl, rfl⟩⟩
  obtain ⟨horder, -⟩ := Drd.run_inOrder (data.length + 1) hopening ⟨rfl, rfl, rfl⟩
  exact ⟨(List.flatMap_def ..).symm.trans (Drd.itemsBytes_decodeFrom data off), horder⟩

/-! ### What DECODE_PAYLOAD answers (R200, R204 to R208) -/

section
variable {s : State} {ci : Byte} {data : List Byte}

/-- A CI outside the table (R204). -/
theorem execDecodePayload_unsupported (hkind : headerKindOf s.params ci = none) :
    execDecodePayload ci data s =
      .next
        { s with
          drd := Drd.idle,
          results := s.results ++ [.response (udr s.params ci .absent [] data [(.unsupportedCi, 0)])] } := by
  rw [execDecodePayload, hkind]
  rfl

/-- Data shorter than the CI's header (R205). -/
theorem execDecodePayload_short {kind : HeaderKind} (hkind : headerKindOf s.params ci = some kind)
    (hlen : data.length < kind.length) :
    execDecodePayload ci data s =
      .next
        { s with
          drd := Drd.idle,
          results := s.results ++ [.response (udr s.params ci .absent [] data [(.headerTruncated, 0)])] } := by
  simp only [execDecodePayload, hkind, if_pos hlen]
  rfl

/-- A CI of the table with a whole header (R200). -/
theorem execDecodePayload_whole {kind : HeaderKind} (hkind : headerKindOf s.params ci = some kind)
    (hlen : kind.length ≤ data.length) :
    execDecodePayload ci data s =
      .next
        { s with
          drd := Drd.idle,
          results :=
            s.results ++
              [.response
                (udr s.params ci (parseHeader kind (data.take kind.length))
                  (Drd.decodeFrom s.params data kind.length).items []
                  (Drd.decodeFrom s.params data kind.length).errors)] } := by
  simp only [execDecodePayload, hkind, if_neg (Nat.not_lt.mpr hlen)]
  rfl

/-- Every response is put together by `udr` (R206). -/
theorem execDecodePayload_udr {t : State} {r : UserDataResponse} (ht : execDecodePayload ci data s = .next t)
    (hr : t.results = s.results ++ [.response r]) :
    ∃ header items rawTail errors, r = udr s.params ci header items rawTail errors := by
  have hudr {r' : UserDataResponse}
      (h : execDecodePayload ci data s = .next { s with drd := Drd.idle, results := s.results ++ [.response r'] }) :
      r = r' := by
    cases h.symm.trans ht
    simpa using hr.symm
  cases hkind : headerKindOf s.params ci with
  | none => exact ⟨_, _, _, _, hudr (execDecodePayload_unsupported hkind)⟩
  | some kind =>
    obtain hlen | hlen := Nat.lt_or_ge data.length kind.length
    · exact ⟨_, _, _, _, hudr (execDecodePayload_short hkind hlen)⟩
    · exact ⟨_, _, _, _, hudr (execDecodePayload_whole hkind hlen)⟩

end

/-- Settles O43: the default table's three entries, and the two cases of DECODE_PAYLOAD that decode no record. -/
theorem undecodedPayloads : Obligations.UndecodedPayloads := by
  refine ⟨by decide, fun s ci data cause h => ?_⟩
  obtain ⟨hkind, rfl⟩ | ⟨kind, hkind, hlen, rfl⟩ := h
  · exact ⟨_, execDecodePayload_unsupported hkind, rfl, rfl, rfl, rfl, rfl, rfl⟩
  · exact ⟨_, execDecodePayload_short hkind hlen, rfl, rfl, rfl, rfl, rfl, rfl⟩

/-- The count of R207 is that of the items `isDataBlock` picks. -/
theorem blockCount_eq (items : List Item) : blockCount items = (items.filter isDataBlock).length :=
  congrArg List.length (List.filter_congr fun it _ => by cases it <;> rfl)

theorem hasMore_iff (items : List Item) :
    hasMore items = true ↔ ∃ offset bytes, Item.manufData offset 0x1F bytes ∈ items := by
  rw [hasMore, List.any_eq_true]
  constructor
  · rintro ⟨it, hit, hmore⟩
    cases it with
    | manufData offset dif bytes =>
      obtain rfl : dif = 0x1F := beq_iff_eq.mp hmore
      exact ⟨offset, bytes, hit⟩
    | fill | globalReadout | opaqueBytes | record => cases hmore
  · rintro ⟨offset, bytes, hit⟩
    exact ⟨_, hit, rfl⟩

/-- Settles O44: the response's derived fields are those `udr` computes from its items and its CI. -/
theorem blockCountAndLastPackage : Obligations.BlockCountAndLastPackage := by
  intro s t ci data r ht hr
  obtain ⟨header, items, rawTail, errors, rfl⟩ := execDecodePayload_udr ht hr
  refine ⟨blockCount_eq items, fun hsource => ?_, fun m hsource => ?_⟩
  · rw [← hasMore_iff]
    simp [udr, lastPackage, hsource]
  · simp [udr, lastPackage, hsource]

/-! ### The item loop of R209 -/

/-- The decoder in context `d` ends with the items and errors `out`. -/
def Drd.EndsWith (cfg : Params) (d : Drd) (out : ItemLoop.Decoded) : Prop :=
  ∃ n, (Drd.run cfg n d).phase = .done ∧ ((Drd.run cfg n d).items, (Drd.run cfg n d).errors) = out

/-- The context with the bytes of the block `p` before offset `j` read for the item in progress. -/
def Drd.moveTo (p : List Byte) (j : Nat) (d : Drd) : Drd :=
  { d with pos := j, rest := p.drop j, taken := (p.drop d.start).take (j - d.start) }

/-- The context before an item at offset `i`, with the items and errors so far. -/
def Drd.atItem (i : Nat) (items : List Item) (errors : List (UnsupportedCause × Nat)) : Drd :=
  { Drd.idle with phase := .dif, start := i, items := items, errors := errors }

/-- Offset `j` is behind the DIF of the record that begins at offset `i`, and within the block or at its end. -/
structure ItemLoop.Inside (p : List Byte) (i j : Nat) : Prop where
  behind : i < j
  within : j ≤ p.length

/-- R209 from `value_length` on, and with it the end of `readParts`. -/
def ItemLoop.valueParts (cfg : Params) (p : List Byte) (d vif : Byte) (dife text vife : List Byte) (j : Nat) :
    Except UnsupportedCause ItemLoop.Parts := do
  let n ← ItemLoop.valueLength cfg p (dataField d) j
  if p.length < j + n then .error .truncated
  else .ok { dife := dife, vif := vif, text := text, vife := vife, vb := (p.drop j).take n, stop := j + n }

/-- R209 from the end of the VIFE chain on. -/
def ItemLoop.chainEndParts (cfg : Params) (p : List Byte) (d vif : Byte) (dife text vife : List Byte) (j : Nat) :
    Except UnsupportedCause ItemLoop.Parts := do
  let (text, j) ← if cfg.plainTextPos = .afterVifeChain then ItemLoop.plainText p vif j else .ok (text, j)
  ItemLoop.valueParts cfg p d vif dife text vife j

/-- R209 from the VIF on. -/
def ItemLoop.vifParts (cfg : Params) (p : List Byte) (d : Byte) (dife : List Byte) (j : Nat) :
    Except UnsupportedCause ItemLoop.Parts := do
  let vif ← ItemLoop.byteAt p j
  let (text, j) ← if cfg.plainTextPos = .afterVif then ItemLoop.plainText p vif (j + 1) else .ok ([], j + 1)
  let (vife, j) ← ItemLoop.chain p cfg.maxVife .vifeOverflow (p.length + 1) (extBit vif) j []
  ItemLoop.chainEndParts cfg p d vif dife text vife j

/-- A record is its DIFE chain and what follows from the VIF on. -/
theorem ItemLoop.readParts_eq (cfg : Params) (p : List Byte) (i : Nat) (d : Byte) :
    ItemLoop.readParts cfg p i d =
      ItemLoop.chain p cfg.maxDife .difeOverflow (p.length + 1) (extBit d) (i + 1) [] >>= fun r =>
        ItemLoop.vifParts cfg p d r.1 r.2 := rfl

/-- R209 for the data record begun in context `e`, once its parts are read or the reading has stopped. -/
def Drd.resume (cfg : Params) (p : List Byte) (fuel : Nat) (e : Drd) : Except UnsupportedCause ItemLoop.Parts →
    ItemLoop.Decoded
  | .error cause => ItemLoop.stopAt p e.start cause (e.items, e.errors)
  | .ok r =>
    if vifValue r.vif = 0x7F#7 ∨ vifSupported cfg r.vif r.vife = true then
      ItemLoop.loop cfg p fuel r.stop (e.items ++ [.record (ItemLoop.recordOf cfg e.start e.dif r)], e.errors)
    else
      ItemLoop.loop cfg p fuel r.stop
        (e.items ++ [.opaqueBytes e.start .vifUnsupported ((p.drop e.start).take (r.stop - e.start))],
          e.errors ++ [(.vifUnsupported, e.start)])

section
variable {cfg : Params} {p : List Byte} {d e : Drd} {i j fuel : Nat} {x : Byte} {out : ItemLoop.Decoded}

/-! #### How the byte-wise decoder ends -/

theorem Drd.EndsWith.of_next (h : (d.next cfg).EndsWith cfg out) : d.EndsWith cfg out := by
  obtain ⟨n, hn⟩ := h
  exact ⟨n + 1, hn⟩

theorem Drd.endsWith_of_done (h : d.phase = .done) : d.EndsWith cfg (d.items, d.errors) := ⟨0, h, rfl⟩

/-- A run that has ended has ended as every longer one does. -/
theorem Drd.EndsWith.run_eq (h : d.EndsWith cfg out) {n : Nat} (hn : (Drd.run cfg n d).phase = .done) :
    ((Drd.run cfg n d).items, (Drd.run cfg n d).errors) = out := by
  obtain ⟨m, hm, rfl⟩ := h
  obtain ⟨k, rfl⟩ | ⟨k, rfl⟩ := (le_total n m).imp Nat.exists_eq_add_of_le Nat.exists_eq_add_of_le
  · rw [Drd.run_add, Drd.run_done cfg _ k hn]
  · rw [Drd.run_add, Drd.run_done cfg _ k hm]

/-- `decode_from` answers what the decoder ends with. -/
theorem Drd.EndsWith.decodeFrom_eq {data : List Byte} {off : Nat} (h : (Drd.opening data off).EndsWith cfg out) :
    ((Drd.decodeFrom cfg data off).items, (Drd.decodeFrom cfg data off).errors) = out := by
  obtain ⟨hdone, -⟩ := Drd.run_ends (cfg := cfg) (d := Drd.opening data off) (n := data.length) ⟨rfl, rfl, rfl⟩
    (by simp [Drd.opening])
  exact h.run_eq hdone

/-! #### Contexts at an offset of the block -/

theorem drop_of_getElem? (h : p[j]? = some x) : p.drop j = x :: p.drop (j + 1) := by
  obtain ⟨hj, rfl⟩ := List.getElem?_eq_some_iff.mp h
  exact List.drop_eq_getElem_cons hj

theorem take_add_drop (hij : i ≤ j) (n : Nat) :
    (p.drop i).take (j - i) ++ (p.drop j).take n = (p.drop i).take (j + n - i) := by
  rw [show j + n - i = (j - i) + n by omega, List.take_add, List.drop_drop, show i + (j - i) = j by omega]

/-- The next byte, read where the context stands at its offset. -/
theorem Drd.feed_moveTo (hx : p[j]? = some x) (hj : e.start ≤ j) :
    { e.moveTo p j with rest := p.drop (j + 1) }.feed x = e.moveTo p (j + 1) := by
  have htaken := take_add_drop (p := p) hj 1
  rw [drop_of_getElem? hx] at htaken
  simp [Drd.feed, Drd.moveTo, ← htaken]

theorem Drd.skip_moveTo (hj : e.start ≤ j) (n : Nat) : (e.moveTo p j).skip n = e.moveTo p (j + n) := by
  simp [Drd.skip, Drd.moveTo, take_add_drop hj]

/-- What stops the decoder stops the item loop at the item's offset (R223). -/
theorem Drd.stop_moveTo_endsWith (hj : e.start ≤ j) (cause : UnsupportedCause) :
    ((e.moveTo p j).stop cause).EndsWith cfg (ItemLoop.stopAt p e.start cause (e.items, e.errors)) := by
  have hbytes : (p.drop e.start).take (j - e.start) ++ p.drop j = p.drop e.start := by
    conv_rhs => rw [← List.take_append_drop (j - e.start) (p.drop e.start), List.drop_drop,
      Nat.add_sub_cancel' hj]
  rw [ItemLoop.stopAt, ← hbytes]
  exact Drd.endsWith_of_done rfl

/-- An item ends, and the next one begins, where the context stands. -/
theorem Drd.emit_moveTo (it : Item) (errors : List (UnsupportedCause × Nat)) :
    { (e.moveTo p j).emit it with errors := errors } =
      (Drd.atItem j (e.items ++ [it]) errors).moveTo p j := by
  simp [Drd.emit, Drd.moveTo, Drd.atItem, Drd.idle]

theorem Drd.opening_eq_moveTo (data : List Byte) (off : Nat) :
    Drd.opening data off = (Drd.atItem off [] []).moveTo data off := by
  simp [Drd.opening, Drd.moveTo, Drd.atItem, Drd.idle]

/-- The byte read, by its place. -/
def Drd.readAt (cfg : Params) (x : Byte) (d : Drd) : DrdPhase → Drd
  | .idle | .done => d
  | .dif => d.readDif cfg x
  | .dife => d.readDife cfg x
  | .vif => d.readVif cfg x
  | .vife => d.readVife cfg x
  | .lvar => d.readLvar cfg x

/-- A turn of the loop reads the byte at the context's offset. -/
theorem Drd.EndsWith.of_readAt {phase : DrdPhase} (hx : p[j]? = some x) (hp : e.phase = phase)
    (hrun : phase ≠ .idle ∧ phase ≠ .done)
    (h : ({ e.moveTo p j with rest := p.drop (j + 1) }.readAt cfg x phase).EndsWith cfg out) :
    (e.moveTo p j).EndsWith cfg out := by
  suffices hnext : (e.moveTo p j).next cfg = { e.moveTo p j with rest := p.drop (j + 1) }.readAt cfg x phase from
    .of_next (hnext ▸ h)
  subst hp
  obtain ⟨phase, pos, rest, start, taken, dif, dife, vif, text, vife, items, errors⟩ := e
  obtain ⟨hidle, hdone⟩ := hrun
  cases phase with
  | idle | done => contradiction
  | dif | dife | vif | vife | lvar => simp [Drd.next, Drd.moveTo, Drd.readAt, drop_of_getElem? hx]

/-- Within a record, the end of the block stops the decoder (R215, R216, R218). -/
theorem Drd.endsWith_of_end (hx : p[j]? = none) (hj : e.start ≤ j)
    (hrun : e.phase = .dife ∨ e.phase = .vif ∨ e.phase = .vife ∨ e.phase = .lvar) :
    (e.moveTo p j).EndsWith cfg (ItemLoop.stopAt p e.start .truncated (e.items, e.errors)) := by
  suffices hnext : (e.moveTo p j).next cfg = (e.moveTo p j).stop .truncated from
    .of_next (hnext ▸ Drd.stop_moveTo_endsWith hj _)
  have hnil := List.drop_eq_nil_of_le (List.getElem?_eq_none_iff.mp hx)
  obtain ⟨phase, pos, rest, start, taken, dif, dife, vif, text, vife, items, errors⟩ := e
  cases phase with
  | idle | dif | done => simp at hrun
  | dife | vif | vife | lvar => simp [Drd.next, Drd.moveTo, hnil]

/-! #### The stages of a data record (R215 to R219, R222) -/

theorem ItemLoop.byteAt_some (hx : p[j]? = some x) : ItemLoop.byteAt p j = .ok x := by simp [ItemLoop.byteAt, hx]

theorem ItemLoop.byteAt_none (hx : p[j]? = none) : ItemLoop.byteAt p j = .error .truncated := by
  simp [ItemLoop.byteAt, hx]

theorem ItemLoop.inside_succ (hx : p[j]? = some x) (hij : i ≤ j) : ItemLoop.Inside p i (j + 1) := by
  obtain ⟨hj, -⟩ := List.getElem?_eq_some_iff.mp hx
  exact ⟨Nat.lt_succ_of_le hij, hj⟩

/-- From the end of every item on, the byte-wise decoder ends as the item loop with `fuel` rounds does. -/
def Drd.LoopAgrees (cfg : Params) (p : List Byte) (i fuel : Nat) : Prop :=
  ∀ (j : Nat) (items : List Item) (errors : List (UnsupportedCause × Nat)), ItemLoop.Inside p i j →
    ((Drd.atItem j items errors).moveTo p j).EndsWith cfg (ItemLoop.loop cfg p fuel j (items, errors))

variable (hloop : Drd.LoopAgrees cfg p e.start fuel)
include hloop

/-- A complete item: the loop goes on behind it. -/
theorem Drd.emit_endsWith (hj : ItemLoop.Inside p e.start j) (it : Item) (errors : List (UnsupportedCause × Nat)) :
    ({ (e.moveTo p j).emit it with errors := errors }).EndsWith cfg
      (ItemLoop.loop cfg p fuel j (e.items ++ [it], errors)) := by
  rw [Drd.emit_moveTo]
  exact hloop j _ _ hj

/-- A complete record (R222). -/
theorem Drd.finish_endsWith (hj : ItemLoop.Inside p e.start j) (vb : List Byte) :
    ((e.moveTo p j).finish cfg vb).EndsWith cfg
      (e.resume cfg p fuel (.ok ⟨e.dife, e.vif, e.text, e.vife, vb, j⟩)) := by
  by_cases hs : vifValue e.vif = 0x7F#7 ∨ vifSupported cfg e.vif e.vife = true
  · rw [Drd.finish_record cfg (e.moveTo p j) vb hs, Drd.resume, if_pos hs]
    exact Drd.emit_endsWith hloop hj _ _
  · rw [Drd.finish, if_neg (by exact hs), Drd.resume, if_neg hs]
    exact Drd.emit_endsWith hloop hj _ _

/-- The value bytes, or too few of them (R219). -/
theorem Drd.takeValue_endsWith (hj : ItemLoop.Inside p e.start j) (before : List Byte) (n : Nat) :
    ((e.moveTo p j).takeValue cfg before n).EndsWith cfg
      (e.resume cfg p fuel
        (if p.length < j + n then .error .truncated
          else .ok ⟨e.dife, e.vif, e.text, e.vife, before ++ (p.drop j).take n, j + n⟩)) := by
  obtain ⟨hlt, hle⟩ := hj
  have hleft : (e.moveTo p j).rest.length = p.length - j := List.length_drop
  split_ifs with hn
  · rw [Drd.takeValue_short _ _ _ _ (by omega)]
    exact Drd.stop_moveTo_endsWith hlt.le _
  · rw [Drd.takeValue_complete _ _ _ _ (by omega), Drd.skip_moveTo hlt.le]
    exact Drd.finish_endsWith hloop ⟨by omega, by omega⟩ _

/-- The LVAR byte and the value it gives the length of (R218). -/
theorem Drd.lvar_endsWith (hp : e.phase = .lvar) (hd : dataField e.dif = 0xD#4) (hj : ItemLoop.Inside p e.start j) :
    (e.moveTo p j).EndsWith cfg
      (e.resume cfg p fuel (ItemLoop.valueParts cfg p e.dif e.vif e.dife e.text e.vife j)) := by
  obtain ⟨hlt, hle⟩ := hj
  rw [ItemLoop.valueParts, ItemLoop.valueLength, if_pos hd]
  cases hx : p[j]? with
  | none =>
    rw [ItemLoop.byteAt_none hx]
    exact Drd.endsWith_of_end hx hlt.le (by simp [hp])
  | some lv =>
    refine .of_readAt hx hp ⟨nofun, nofun⟩ ?_
    rw [ItemLoop.byteAt_some hx, Drd.readAt]
    cases hreserved : lvarReserved cfg lv with
    | true =>
      rw [Drd.readLvar_reserved hreserved, Drd.feed_moveTo hx hlt.le]
      simp only [hreserved, if_true]
      exact Drd.stop_moveTo_endsWith (Nat.le_succ_of_le hlt.le) _
    | false =>
      rw [Drd.readLvar_value hreserved, Drd.feed_moveTo hx hlt.le]
      simp only [hreserved]
      have hvalue := Drd.takeValue_endsWith hloop (ItemLoop.inside_succ hx hlt.le) [lv] (lvarCount lv)
      have hbytes : (p.drop j).take (1 + lvarCount lv) = [lv] ++ (p.drop (j + 1)).take (lvarCount lv) := by
        rw [drop_of_getElem? hx, Nat.add_comm]
        rfl
      rwa [Nat.add_assoc, ← hbytes] at hvalue

/-- The value, with its LVAR byte where the data field asks for one (R218). -/
theorem Drd.toValue_endsWith (hj : ItemLoop.Inside p e.start j) :
    ((e.moveTo p j).toValue cfg).EndsWith cfg
      (e.resume cfg p fuel (ItemLoop.valueParts cfg p e.dif e.vif e.dife e.text e.vife j)) := by
  by_cases hd : dataField e.dif = 0xD#4
  · rw [Drd.toValue_lvar _ (e.moveTo p j) hd]
    exact Drd.lvar_endsWith (e := { e with phase := .lvar }) hloop rfl hd hj
  · rw [Drd.toValue_fixed _ (e.moveTo p j) hd, ItemLoop.valueParts, ItemLoop.valueLength, if_neg hd]
    exact Drd.takeValue_endsWith hloop hj [] _

omit hloop in
/-- The plain text is the item loop's; where it is cut short, both stop with TRUNCATED (R216). -/
theorem Drd.plainText_moveTo (hj : ItemLoop.Inside p e.start j) (htext : e.text = []) :
    (ItemLoop.plainText p e.vif j = .error .truncated ∧ (e.moveTo p j).plainText = none) ∨
      ∃ text j', ItemLoop.plainText p e.vif j = .ok (text, j') ∧ ItemLoop.Inside p e.start j' ∧
        (e.moveTo p j).plainText = some ({ e with text := text }.moveTo p j') := by
  obtain ⟨hlt, hle⟩ := id hj
  unfold ItemLoop.plainText
  by_cases hv : vifValue e.vif = 0x7C#7
  · rw [if_neg (not_not.mpr hv)]
    cases hx : p[j]? with
    | none =>
      have hnil := List.drop_eq_nil_of_le (List.getElem?_eq_none_iff.mp hx)
      exact .inl ⟨by rw [ItemLoop.byteAt_none hx], Drd.plainText_truncated _ hv (.inl hnil)⟩
    | some k =>
      obtain ⟨-, hk1⟩ := ItemLoop.inside_succ hx hlt.le
      have hcons : (e.moveTo p j).rest = k :: p.drop (j + 1) := drop_of_getElem? hx
      have hleft : (p.drop (j + 1)).length = p.length - (j + 1) := List.length_drop
      rw [ItemLoop.byteAt_some hx]
      dsimp only
      split_ifs with hk
      · exact .inl ⟨rfl, Drd.plainText_truncated _ hv (.inr ⟨k, _, hcons, by omega⟩)⟩
      · refine .inr ⟨_, _, rfl, ⟨by omega, by omega⟩, ?_⟩
        rw [Drd.plainText, if_neg (by exact not_not.mpr hv), hcons]
        dsimp only
        rw [if_neg (by omega), Drd.skip_moveTo hlt.le, ← Nat.add_assoc]
        rfl
  · rw [if_pos hv]
    exact .inr ⟨[], j, rfl, hj, htext ▸ Drd.plainText_absent _ hv⟩

/-- The end of the VIFE chain: the plain text where it stands there, then the value. -/
theorem Drd.endChain_endsWith (hj : ItemLoop.Inside p e.start j)
    (htext : cfg.plainTextPos = .afterVifeChain → e.text = []) :
    ((e.moveTo p j).endChain cfg).EndsWith cfg
      (e.resume cfg p fuel (ItemLoop.chainEndParts cfg p e.dif e.vif e.dife e.text e.vife j)) := by
  rw [ItemLoop.chainEndParts]
  by_cases hpos : cfg.plainTextPos = .afterVifeChain
  · rw [if_pos hpos]
    obtain ⟨hstop, hnone⟩ | ⟨text, j', hok, hj', hsome⟩ := Drd.plainText_moveTo hj (htext hpos)
    · rw [hstop, Drd.endChain_stops hpos hnone]
      exact Drd.stop_moveTo_endsWith hj.behind.le _
    · rw [hok, Drd.endChain_text hpos hsome]
      exact Drd.toValue_endsWith (e := { e with text := text }) hloop hj'
  · rw [if_neg hpos, Drd.endChain_noText hpos]
    exact Drd.toValue_endsWith hloop hj

omit hloop in
/-- A chain of the item loop, where `context ext chain j` is the decoder's context with that much of the chain read up
to offset `j`, another byte to come where `ext` is set (R215). -/
theorem Drd.chain_endsWith {max : Nat} {ovf : UnsupportedCause} {context : Bool → List Byte → Nat → Drd}
    {f : List Byte × Nat → Except UnsupportedCause ItemLoop.Parts}
    (hend : ∀ chain j, ItemLoop.Inside p e.start j → p[j]? = none →
      (context true chain j).EndsWith cfg (ItemLoop.stopAt p e.start .truncated (e.items, e.errors)))
    (hstep : ∀ chain j x, ItemLoop.Inside p e.start j → p[j]? = some x →
      (chain.length = max →
        (context true chain j).EndsWith cfg (ItemLoop.stopAt p e.start ovf (e.items, e.errors))) ∧
      (chain.length ≠ max → ∀ out, (context (extBit x) (chain ++ [x]) (j + 1)).EndsWith cfg out →
        (context true chain j).EndsWith cfg out))
    (hlast : ∀ chain j, ItemLoop.Inside p e.start j →
      (context false chain j).EndsWith cfg (e.resume cfg p fuel (f (chain, j))))
    (bytes : Nat) (ext : Bool) (chain : List Byte) (hj : ItemLoop.Inside p e.start j) (hbytes : p.length < j + bytes) :
    (context ext chain j).EndsWith cfg
      (e.resume cfg p fuel (ItemLoop.chain p max ovf bytes ext j chain >>= f)) := by
  induction bytes generalizing ext chain j with
  | zero =>
    obtain ⟨-, hle⟩ := hj
    omega
  | succ bytes ih =>
    cases ext with
    | false => exact hlast chain j hj
    | true =>
      rw [ItemLoop.chain]
      cases hx : p[j]? with
      | none =>
        rw [ItemLoop.byteAt_none hx]
        exact hend chain j hj hx
      | some x =>
        rw [ItemLoop.byteAt_some hx]
        obtain ⟨hovf, hnext⟩ := hstep chain j x hj hx
        dsimp only
        split_ifs with hmax
        · exact hovf hmax
        · exact hnext hmax _ (ih _ _ (ItemLoop.inside_succ hx hj.behind.le) (by omega))

/-- The VIFE chain and what follows it (R217). -/
theorem Drd.afterVif_endsWith (hj : ItemLoop.Inside p e.start j)
    (htext : cfg.plainTextPos = .afterVifeChain → e.text = []) (hvife : e.vife = []) (ext : Bool) :
    ((e.moveTo p j).afterVif cfg ext).EndsWith cfg
      (e.resume cfg p fuel
        (ItemLoop.chain p cfg.maxVife .vifeOverflow (p.length + 1) ext j [] >>= fun r =>
          ItemLoop.chainEndParts cfg p e.dif e.vif e.dife e.text r.1 r.2)) := by
  rw [← hvife]
  cases ext with
  | false => exact Drd.endChain_endsWith hloop hj htext
  | true =>
    refine Drd.chain_endsWith
      (context := fun ext vife j => ({ e with phase := .vife, vife := vife }.moveTo p j).afterVif cfg ext)
      (fun vife j hj hx => ?_) (fun vife j x hj hx => ?_)
      (fun vife j hj => ?_) _ true e.vife hj (Nat.lt_add_left j p.length.lt_succ_self)
    · exact Drd.endsWith_of_end (e := { e with phase := .vife, vife := vife }) hx hj.behind.le (by simp)
    · have hread (out : ItemLoop.Decoded) := Drd.EndsWith.of_readAt (cfg := cfg) (out := out)
        (e := { e with phase := .vife, vife := vife }) hx rfl ⟨nofun, nofun⟩
      have hfeed := Drd.feed_moveTo (e := { e with phase := .vife, vife := vife }) hx hj.behind.le
      refine ⟨fun hmax => hread _ ?_, fun hmax out hout => hread _ ?_⟩
      · rw [Drd.readAt, Drd.readVife_overflow hmax, hfeed]
        exact Drd.stop_moveTo_endsWith (e := { e with phase := .vife, vife := vife }) (Nat.le_succ_of_le hj.behind.le) _
      · rw [Drd.readAt, Drd.readVife_joins hmax, hfeed]
        exact hout
    · exact Drd.endChain_endsWith (e := { e with phase := .vife, vife := vife }) hloop hj htext

omit hloop in
/-- R209 from the VIF on, where there is one. -/
theorem ItemLoop.vifParts_some (d : Byte) (dife : List Byte) {vif : Byte} (hx : p[j]? = some vif) :
    ItemLoop.vifParts cfg p d dife j =
      (if cfg.plainTextPos = .afterVif then ItemLoop.plainText p vif (j + 1) else .ok ([], j + 1)) >>= fun t =>
        ItemLoop.chain p cfg.maxVife .vifeOverflow (p.length + 1) (extBit vif) t.2 [] >>= fun r =>
          ItemLoop.chainEndParts cfg p d vif dife t.1 r.1 r.2 := by
  rw [ItemLoop.vifParts, ItemLoop.byteAt_some hx]
  split_ifs <;> rfl

/-- The VIF and what follows it (R216). -/
theorem Drd.vif_endsWith (hp : e.phase = .vif) (hj : ItemLoop.Inside p e.start j) (htext : e.text = [])
    (hvife : e.vife = []) :
    (e.moveTo p j).EndsWith cfg (e.resume cfg p fuel (ItemLoop.vifParts cfg p e.dif e.dife j)) := by
  cases hx : p[j]? with
  | none =>
    rw [ItemLoop.vifParts, ItemLoop.byteAt_none hx]
    exact Drd.endsWith_of_end hx hj.behind.le (by simp [hp])
  | some vif =>
    refine .of_readAt hx hp ⟨nofun, nofun⟩ ?_
    have hj' := ItemLoop.inside_succ hx hj.behind.le
    have hfeed : { e.moveTo p j with rest := p.drop (j + 1) }.feedVif vif =
        { e with vif := vif, text := [] }.moveTo p (j + 1) := by
      rw [Drd.feedVif, Drd.feed_moveTo hx hj.behind.le, ← htext]
      rfl
    rw [Drd.readAt, ItemLoop.vifParts_some _ _ hx]
    by_cases hpos : cfg.plainTextPos = .afterVif
    · rw [if_pos hpos]
      obtain ⟨hstop, hnone⟩ | ⟨text, j', hok, hj', hsome⟩ :=
        Drd.plainText_moveTo (e := { e with vif := vif, text := [] }) hj' rfl
      · rw [hstop, Drd.readVif_stops hpos (hfeed ▸ hnone), hfeed]
        exact Drd.stop_moveTo_endsWith (e := { e with vif := vif, text := [] }) hj'.behind.le _
      · rw [hok, Drd.readVif_text hpos (hfeed ▸ hsome)]
        exact Drd.afterVif_endsWith (e := { e with vif := vif, text := text }) hloop hj' (by simp [hpos]) hvife _
    · rw [if_neg hpos, Drd.readVif_noText hpos, hfeed]
      exact Drd.afterVif_endsWith (e := { e with vif := vif, text := [] }) hloop hj' (fun _ => rfl) hvife _

/-- The DIFE chain and what follows it (R215). -/
theorem Drd.difeChain_endsWith (hj : ItemLoop.Inside p e.start j) (htext : e.text = []) (hvife : e.vife = [])
    (ext : Bool) :
    ({ e with phase := if ext then .dife else .vif }.moveTo p j).EndsWith cfg
      (e.resume cfg p fuel
        (ItemLoop.chain p cfg.maxDife .difeOverflow (p.length + 1) ext j e.dife >>= fun r =>
          ItemLoop.vifParts cfg p e.dif r.1 r.2)) := by
  refine Drd.chain_endsWith
    (context := fun ext dife j => { e with phase := if ext then .dife else .vif, dife := dife }.moveTo p j)
    (fun dife j hj hx => ?_) (fun dife j x hj hx => ?_)
    (fun dife j hj => ?_) _ ext e.dife hj (Nat.lt_add_left j p.length.lt_succ_self)
  · exact Drd.endsWith_of_end (e := { e with phase := .dife, dife := dife }) hx hj.behind.le (by simp)
  · have hread (out : ItemLoop.Decoded) := Drd.EndsWith.of_readAt (cfg := cfg) (out := out)
      (e := { e with phase := .dife, dife := dife }) hx rfl ⟨nofun, nofun⟩
    have hfeed := Drd.feed_moveTo (e := { e with phase := .dife, dife := dife }) hx hj.behind.le
    refine ⟨fun hmax => hread _ ?_, fun hmax out hout => hread _ ?_⟩
    · rw [Drd.readAt, Drd.readDife_overflow hmax, hfeed]
      exact Drd.stop_moveTo_endsWith (e := { e with phase := .dife, dife := dife }) (Nat.le_succ_of_le hj.behind.le) _
    · rw [Drd.readAt, Drd.readDife_joins hmax, hfeed]
      exact hout
  · exact Drd.vif_endsWith (e := { e with phase := .vif, dife := dife }) hloop rfl hj htext hvife

/-- A DIF with a data field and the record it opens (R209). -/
theorem Drd.record_endsWith (hj : ItemLoop.Inside p e.start (e.start + 1)) (hdife : e.dife = []) (htext : e.text = [])
    (hvife : e.vife = []) :
    ({ e with phase := if extBit e.dif then .dife else .vif }.moveTo p (e.start + 1)).EndsWith cfg
      (e.resume cfg p fuel (ItemLoop.readParts cfg p e.start e.dif)) := by
  rw [ItemLoop.readParts_eq, ← hdife]
  exact Drd.difeChain_endsWith hloop hj htext hvife _

/-- One item: both loops take the DIF at its offset in the same way (R209, R211 to R214). -/
theorem Drd.item_endsWith (hp : e.phase = .dif) (hdife : e.dife = []) (htext : e.text = []) (hvife : e.vife = [])
    (hx : p[e.start]? = some x) :
    (e.moveTo p e.start).EndsWith cfg (ItemLoop.loop cfg p (fuel + 1) e.start (e.items, e.errors)) := by
  have hj := ItemLoop.inside_succ hx le_rfl
  have hfeed := Drd.feed_moveTo hx le_rfl
  refine .of_readAt hx hp ⟨nofun, nofun⟩ ?_
  simp only [ItemLoop.loop, hx, Drd.readAt, Drd.readDif, hfeed]
  by_cases hfill : x = 0x2F#8
  · rw [if_pos hfill, if_pos hfill]
    exact Drd.emit_endsWith hloop hj _ _
  rw [if_neg hfill, if_neg hfill]
  by_cases hmanuf : x = 0x0F#8 ∨ x = 0x1F#8
  · rw [if_pos hmanuf, if_pos hmanuf]
    exact Drd.endsWith_of_done rfl
  rw [if_neg hmanuf, if_neg hmanuf]
  by_cases hglobal : x = 0x7F#8
  · rw [if_pos hglobal, if_pos hglobal]
    exact Drd.emit_endsWith hloop hj _ _
  rw [if_neg hglobal, if_neg hglobal]
  by_cases hfield : dataField x = 0xF#4
  · rw [if_pos hfield, if_pos hfield]
    exact Drd.stop_moveTo_endsWith hj.behind.le _
  rw [if_neg hfield, if_neg hfield]
  by_cases hbcd : dataField x = 0xE#4 ∧ cfg.bcd12 = false
  · rw [if_pos hbcd, if_pos hbcd]
    exact Drd.stop_moveTo_endsWith hj.behind.le _
  rw [if_neg hbcd, if_neg hbcd]
  exact Drd.record_endsWith (e := { e with dif := x }) hloop hj hdife htext hvife

omit hloop in
/-- At the end of the block both loops end (R209). -/
theorem Drd.end_endsWith (hp : e.phase = .dif) (hx : p[j]? = none) :
    (e.moveTo p j).EndsWith cfg (ItemLoop.loop cfg p fuel j (e.items, e.errors)) := by
  have hnil : p.drop j = [] := List.drop_eq_nil_of_le (List.getElem?_eq_none_iff.mp hx)
  have hloop : ItemLoop.loop cfg p fuel j (e.items, e.errors) = (e.items, e.errors) := by
    cases fuel <;> simp [ItemLoop.loop, hx]
  refine .of_next ?_
  rw [Drd.next_end _ (e.moveTo p j) hp hnil, hloop]
  exact Drd.endsWith_of_done rfl

end

/-- The byte-wise decoder ends as the item loop does, from the beginning of any item on, where the loop has a round for
every byte left and one more. -/
theorem Drd.loop_endsWith {cfg : Params} {p : List Byte} (fuel i : Nat) (items : List Item)
    (errors : List (UnsupportedCause × Nat)) (hfuel : p.length < i + fuel) :
    ((Drd.atItem i items errors).moveTo p i).EndsWith cfg (ItemLoop.loop cfg p fuel i (items, errors)) := by
  induction fuel generalizing i items errors with
  | zero => exact Drd.end_endsWith (e := .atItem i items errors) rfl (List.getElem?_eq_none_iff.mpr hfuel.le)
  | succ fuel ih =>
    cases hx : p[i]? with
    | none => exact Drd.end_endsWith (e := .atItem i items errors) rfl hx
    | some x =>
      have hloop : Drd.LoopAgrees cfg p i fuel := fun j items errors hj =>
        ih j items errors (by have := hj.behind; omega)
      exact Drd.item_endsWith (e := .atItem i items errors) hloop rfl rfl rfl rfl hx

/-- The decoder computes the item loop (R209). -/
theorem Drd.decodeFrom_eq_itemLoop (cfg : Params) (data : List Byte) (off : Nat) :
    ((Drd.decodeFrom cfg data off).items, (Drd.decodeFrom cfg data off).errors) =
      ItemLoop.decodeFrom cfg data off := by
  refine Drd.EndsWith.decodeFrom_eq ?_
  rw [Drd.opening_eq_moveTo]
  exact Drd.loop_endsWith _ _ _ _ (Nat.lt_add_left off data.length.lt_succ_self)

/-- Settles O42: the byte-wise decoder ends as the item loop does, from each item's beginning on. -/
theorem decodeCommandsRunTheItemLoop : Obligations.DecodeCommandsRunTheItemLoop := by
  intro s data
  have hloop (off : Nat) := Drd.decodeFrom_eq_itemLoop s.params data off
  refine ⟨?_, fun ci kind hkind hlen => ?_⟩
  · rw [← hloop 0]
    rfl
  · rw [← hloop kind.length]
    exact execDecodePayload_whole hkind hlen

/-! ### The rows of a data block (R211 to R222) -/

/-- In context `e` the row byte `x` and the `m` bytes behind it have been read since `d`, for the same item. -/
structure Drd.HasRead (x : Byte) (m : Nat) (d e : Drd) : Prop where
  start : e.start = d.start
  items : e.items = d.items
  errors : e.errors = d.errors
  taken : e.taken = d.taken ++ [x] ++ d.rest.take m
  rest : e.rest = d.rest.drop m
  pos : e.pos = d.pos + 1 + m

section
variable {s : State} {i : Instr} {x : Byte} {e : Drd} {m : Nat}

theorem Drd.hasRead_feed (d : Drd) (x : Byte) : d.HasRead x 0 (d.feed x) :=
  ⟨rfl, rfl, rfl, (List.append_nil _).symm, rfl, rfl⟩

/-- A row that ends in `stop` stops the decoder (R223). -/
theorem Drd.HasRead.stopsDecoding (h : s.drd.HasRead x m e) {cause : UnsupportedCause}
    (hi : exec i s = .next { s with drd := e.stop cause }) : StopsDecoding i s x cause := by
  refine ⟨_, hi, ?_, ?_, rfl, rfl⟩
  · rw [Drd.stop_items, h.items, h.start, h.taken, h.rest, List.append_assoc _ (List.take m _),
      List.take_append_drop]
  · rw [Drd.stop_errors, h.errors, h.start]

/-- A row that emits an item completes it. -/
theorem Drd.HasRead.completesItem (h : s.drd.HasRead x m e) {it : Item} {errors : List (UnsupportedCause × Nat)}
    (hi : exec i s = .next { s with drd := { e.emit it with errors := s.drd.errors ++ errors } }) :
    CompletesItem i s m it errors := by
  rw [CompletesItem, hi, Drd.emit, h.pos, h.rest, h.items]

/-! #### DIF rows (R211 to R214) -/

theorem readDif_selected (x : Byte) (hs : s.drd.phase = .dif) :
    readDif x s = .next { s with drd := s.drd.readDif s.params x } := whenReading_selected _ s hs

/-- Settles O45: each special DIF is one branch of `readDif`. -/
theorem specialDifRows : Obligations.SpecialDifRows := by
  intro s hs
  refine ⟨?fill, ?global, fun i dif hi => ?manuf, fun high hw => ?reserved⟩
  case fill =>
    refine (Drd.hasRead_feed s.drd 0x2F).completesItem ?_
    rw [List.append_nil]
    exact readDif_selected 0x2F hs
  case global =>
    refine (Drd.hasRead_feed s.drd 0x7F).completesItem ?_
    rw [List.append_nil]
    exact readDif_selected 0x7F hs
  case manuf =>
    simp only [List.mem_cons, Prod.mk.injEq, List.not_mem_nil, or_false] at hi
    obtain ⟨rfl, rfl⟩ | ⟨rfl, rfl⟩ := hi
    · exact ⟨_, readDif_selected 0x0F hs, rfl, rfl, rfl, rfl⟩
    · exact ⟨_, readDif_selected 0x1F hs, rfl, rfl, rfl, rfl⟩
  case reserved =>
    obtain ⟨hfill, hmanuf, hglobal, hfield⟩ := reservedDif_not_special high hw
    refine (Drd.hasRead_feed s.drd _).stopsDecoding ((readDif_selected _ hs).trans ?_)
    rw [Drd.readDif_reserved ⟨hfill, hmanuf, hglobal⟩ (.inl hfield)]
    rfl

/-- Each data-field row reads the DIF byte with its code, which is not 0xF (30_encoding.md R88). -/
theorem exec_dataDifRow {h : DifHead} {df : BitVec 4} (hi : (i, df) ∈ dataDifRows h) (s : State) :
    exec i s = readDif (h.byte df) s ∧ df ≠ 0xF := by
  generalize hrow : (i, df) = row at hi
  fin_cases hi <;> cases hrow <;> exact ⟨rfl, by decide⟩

/-- Settles O46: a DIF with a data field is no special one, and only 0xE depends on a parameter. -/
theorem dataDifRows : Obligations.DataDifRows := by
  intro s h i df hs hi
  obtain ⟨hexec, hdf⟩ := exec_dataDifRow hi s
  have hspecial := difByte_not_special h df hdf
  rw [readDif_selected _ hs] at hexec
  refine ⟨fun hbcd => ?_, fun hE hbcd => (Drd.hasRead_feed s.drd _).stopsDecoding ?_⟩
  · rw [hexec, Drd.readDif_record hspecial (by simpa using hdf), extBit_difByte]
    · rfl
    · rw [dataField_difByte]
      rintro ⟨hE, hfalse⟩
      exact absurd ((hbcd hE).symm.trans hfalse) nofun
  · rw [hexec, Drd.readDif_reserved hspecial (.inr ⟨(dataField_difByte h df).trans hE, hbcd⟩)]

/-! #### The DIFE row (R215) -/

/-- Settles O47: the two branches of `readDife`. -/
theorem difeRow : Obligations.DifeRow := by
  intro s ext subunit tariff storage hs
  have hexec : exec (.dife ext subunit tariff storage) s =
      .next { s with drd := s.drd.readDife s.params (difeByte ext subunit tariff storage) } :=
    whenReading_selected _ s hs
  refine ⟨fun hmax => ?_, fun hmax => (Drd.hasRead_feed s.drd _).stopsDecoding ?_⟩
  · rw [hexec, Drd.readDife_joins hmax, extBit_difeByte]
    rfl
  · rw [hexec, Drd.readDife_overflow hmax]

/-! #### VIF rows (R216) -/

/-- Each VIF row reads the VIF byte with its value bits; these are 0x7C in the plain-text row only
(30_encoding.md R92). -/
theorem exec_plainVifRow {ext : Bool} {value v : BitVec 7} (hi : (i, v) ∈ plainVifRows ext value) (s : State) :
    exec i s = readVif (vifByte ext v) s ∧ v ≠ 0x7C#7 := by
  simp only [plainVifRows, List.mem_append, List.mem_cons, Prod.mk.injEq, List.not_mem_nil, or_false] at hi
  rcases hi with (⟨rfl, rfl⟩ | ⟨rfl, rfl⟩ | ⟨rfl, rfl⟩ | ⟨rfl, rfl⟩ | ⟨rfl, rfl⟩) | hprimary
  case inr =>
    split at hprimary
    · rename_i hvalue
      obtain ⟨rfl, rfl⟩ := Prod.mk.inj (List.mem_singleton.mp hprimary)
      exact ⟨rfl, by rintro rfl; exact absurd hvalue (by decide)⟩
    · cases hprimary
  all_goals exact ⟨rfl, by decide⟩

theorem readVif_selected (x : Byte) (hs : s.drd.phase = .vif) :
    readVif x s = .next { s with drd := s.drd.readVif s.params x } := whenReading_selected _ s hs

/-- A VIF without plain text right behind it is followed by the VIFE chain or its end. -/
theorem Drd.readVif_afterVif {cfg : Params} {d : Drd}
    (htext : vifValue x ≠ 0x7C#7 ∨ cfg.plainTextPos = .afterVifeChain) :
    d.readVif cfg x = (d.feedVif x).afterVif cfg (extBit x) := by
  by_cases hpos : cfg.plainTextPos = .afterVif
  · have hv := htext.resolve_right (by simp [hpos])
    exact Drd.readVif_text hpos (Drd.plainText_absent (d.feedVif x) hv)
  · exact Drd.readVif_noText hpos

/-- Settles O48: with EXT = 1 and no text to read, `readVif` leaves the decoder at the first VIFE. -/
theorem vifRowsOpenTheChain : Obligations.VifRowsOpenTheChain := by
  intro s value i v hs hi
  have hexec : exec i s = readVif (vifByte true v) s ∧
      (vifValue (vifByte true v) ≠ 0x7C#7 ∨ s.params.plainTextPos = .afterVifeChain) := by
    obtain hi | ⟨hi, hpos⟩ := hi
    · obtain ⟨hexec, hv⟩ := exec_plainVifRow hi s
      exact ⟨hexec, .inl (by rwa [vifValue_vifByte])⟩
    · obtain ⟨rfl, rfl⟩ := Prod.mk.inj hi
      exact ⟨rfl, .inr hpos⟩
  obtain ⟨hexec, htext⟩ := hexec
  rw [hexec, readVif_selected _ hs, Drd.readVif_afterVif htext, extBit_vifByte]
  rfl

theorem Drd.hasRead_feedVif (d : Drd) (x : Byte) : d.HasRead x 0 (d.feedVif x) :=
  ⟨rfl, rfl, rfl, (List.append_nil _).symm, rfl, rfl⟩

/-- Settles O50: the plain text is there or it is not. -/
theorem plainTextVifRow : Obligations.PlainTextVifRow := by
  intro s hs hpos
  have hexec : exec (.vifPlainText true) s = .next { s with drd := s.drd.readVif s.params 0xFC } :=
    readVif_selected 0xFC hs
  have hvif : vifValue 0xFC = 0x7C#7 := by decide
  refine ⟨fun k chars more hrest hk => ?_, fun hrest => (Drd.hasRead_feedVif s.drd _).stopsDecoding ?_⟩
  · have htext := Drd.plainText_present (s.drd.feedVif 0xFC) hvif k chars more hrest hk
    have hoffset : s.drd.pos + 1 + (1 + k.toNat) = s.drd.pos + 2 + k.toNat := by omega
    rw [hexec, Drd.readVif_text hpos htext, show extBit 0xFC = true by decide]
    simp [Drd.afterVif, Drd.feedVif, Drd.feed, hoffset]
  · have htext := Drd.plainText_truncated (s.drd.feedVif 0xFC) hvif hrest
    rw [hexec, Drd.readVif_stops hpos htext]

/-! #### The VIFE row (R217) -/

theorem exec_vife_selected (ext : Bool) (value : BitVec 7) (hs : s.drd.phase = .vife) :
    exec (.vife ext value) s = .next { s with drd := s.drd.readVife s.params (vifByte ext value) } :=
  whenReading_selected _ s hs

/-- Settles O51: the two branches of `readVife`. -/
theorem vifeRow : Obligations.VifeRow := by
  intro s value hs
  refine ⟨fun ext hmax => (Drd.hasRead_feed s.drd _).stopsDecoding ?_, fun hmax => ?_⟩
  · rw [exec_vife_selected ext value hs, Drd.readVife_overflow hmax]
  · rw [exec_vife_selected true value hs, Drd.readVife_joins hmax, extBit_vifByte]
    rfl


/-! #### The value bytes of a record (R218 to R222) -/

theorem Drd.HasRead.skip (h : s.drd.HasRead x m e) (n : Nat) : s.drd.HasRead x (m + n) (e.skip n) := by
  refine ⟨h.start, h.items, h.errors, ?_, ?_, ?_⟩
  · rw [Drd.skip_taken, h.taken, h.rest, List.take_add, List.append_assoc]
  · rw [Drd.skip_rest, h.rest, List.drop_drop]
  · rw [Drd.skip_pos, h.pos, Nat.add_assoc _ m n]

section
variable {before : List Byte} {n : Nat}

/-- Too few value bytes (R219). -/
theorem Drd.HasRead.value_stops (h : s.drd.HasRead x m e)
    (hi : exec i s = .next { s with drd := e.takeValue s.params before n }) (hn : e.rest.length < n) :
    StopsDecoding i s x .truncated :=
  h.stopsDecoding (hi.trans (by rw [Drd.takeValue_short _ _ _ _ hn]))

/-- Enough of them, the RECORD case (R222). -/
theorem Drd.HasRead.value_record (h : s.drd.HasRead x m e)
    (hi : exec i s = .next { s with drd := e.takeValue s.params before n }) (hn : n ≤ e.rest.length)
    (hs : vifValue e.vif = 0x7F#7 ∨ vifSupported s.params e.vif e.vife = true) :
    CompletesItem i s (m + n) (.record (e.recordOf s.params (before ++ e.rest.take n))) [] := by
  refine (h.skip n).completesItem ?_
  rw [hi, Drd.takeValue_complete _ _ _ _ hn, Drd.finish_record _ (e.skip n) _ hs, List.append_nil, ← h.errors]
  rfl

/-- Enough of them, the OPAQUE case (R222). -/
theorem Drd.HasRead.value_opaque (h : s.drd.HasRead x m e)
    (hi : exec i s = .next { s with drd := e.takeValue s.params before n }) (hn : n ≤ e.rest.length)
    (hm : vifValue e.vif ≠ 0x7F#7) (hs : vifSupported s.params e.vif e.vife = false) :
    CompletesItem i s (m + n)
      (.opaqueBytes s.drd.start .vifUnsupported (s.drd.taken ++ [x] ++ s.drd.rest.take (m + n)))
      [(.vifUnsupported, s.drd.start)] := by
  have hskip := h.skip n
  refine hskip.completesItem ?_
  rw [hi, Drd.takeValue_complete _ _ _ _ hn, Drd.finish_opaque _ (e.skip n) _ hm hs, hskip.errors, hskip.start,
    hskip.taken]

end

/-! #### The end of the VIFE chain (R216 to R222) -/

/-- The last byte `x` of the chain has been read; the record has the VIF `vif` and the chain `vife`. -/
def Drd.feedLast (x vif : Byte) (vife : List Byte) (d : Drd) : Drd := { d.feed x with vif := vif, vife := vife }

/-- The context behind the chain and the `m` bytes of plain text that may follow. -/
def Drd.atValue (x vif : Byte) (vife text after : List Byte) (m : Nat) (d : Drd) : Drd :=
  { d with vif := vif, vife := vife, text := text, taken := d.taken ++ [x] ++ d.rest.take m, rest := after,
           pos := d.pos + 1 + m }

theorem exec_lastVife {value : BitVec 7} (hs : s.drd.phase = .vife) (hmax : s.drd.vife.length ≠ s.params.maxVife) :
    exec (.vife false value) s =
      .next
        { s with
          drd :=
            (s.drd.feedLast (vifByte false value) s.drd.vif (s.drd.vife ++ [vifByte false value])).endChain
              s.params } := by
  rw [exec_vife_selected false value hs, Drd.readVife_joins hmax, extBit_vifByte]
  rfl

theorem exec_lastVifRow {value v : BitVec 7} (hi : (i, v) ∈ (.vifPlainText false, 0x7C#7) :: plainVifRows false value)
    (s : State) : exec i s = readVif (vifByte false v) s := by
  obtain hi | hi := List.mem_cons.mp hi
  · obtain ⟨rfl, rfl⟩ := Prod.mk.inj hi
    rfl
  · exact (exec_plainVifRow hi s).1

/-- A VIF with EXT = 0 and the plain text it has, which stands at one place under both P_PLAINTEXT_POS. -/
theorem Drd.readVif_last {cfg : Params} {d : Drd} (hx : extBit x = false)
    (htext : (d.feedVif x).plainText = some e) : d.readVif cfg x = e.toValue cfg := by
  cases hpos : cfg.plainTextPos with
  | afterVif =>
    rw [Drd.readVif_text hpos htext, hx]
    exact Drd.endChain_noText (by simp [hpos])
  | afterVifeChain =>
    rw [Drd.readVif_noText (by simp [hpos]), hx]
    exact Drd.endChain_text hpos htext

theorem Drd.readVif_last_stops {cfg : Params} {d : Drd} (hx : extBit x = false)
    (htext : (d.feedVif x).plainText = none) : d.readVif cfg x = (d.feedVif x).stop .truncated := by
  cases hpos : cfg.plainTextPos with
  | afterVif => exact Drd.readVif_stops hpos htext
  | afterVifeChain =>
    rw [Drd.readVif_noText (by simp [hpos]), hx]
    exact Drd.endChain_stops hpos htext

section
variable {vif : Byte} {vife text after : List Byte} {textHere : Prop}

/-- A chain that ends without plain text behind it: the value follows. -/
theorem exec_endsChain_noText (h : EndsChain s i x vif vife textHere) (ht : ¬ textHere) :
    exec i s = .next { s with drd := (s.drd.feedLast x vif vife).toValue s.params } := by
  obtain ⟨hs, ⟨value, v, hi, hx⟩, rfl, rfl, htext⟩ | ⟨hs, hmax, ⟨value, rfl, rfl⟩, rfl, rfl, htext⟩ := h
  · have hplain := Drd.plainText_absent (s.drd.feedVif vif) (mt htext.mpr ht)
    rw [exec_lastVifRow hi, ← hx, readVif_selected _ hs, Drd.readVif_last (hx ▸ extBit_vifByte false v) hplain]
    rfl
  · rw [exec_lastVife hs hmax]
    by_cases hpos : s.params.plainTextPos = .afterVifeChain
    · have hplain := Drd.plainText_absent
        (s.drd.feedLast (vifByte false value) s.drd.vif (s.drd.vife ++ [vifByte false value]))
        fun hv => ht (htext.mpr ⟨hv, hpos⟩)
      rw [Drd.endChain_text hpos hplain]
    · rw [Drd.endChain_noText hpos]

/-- A chain with plain text behind it: the value follows the text, and a text cut short stops the decoder. -/
theorem exec_endsChain_text (h : EndsChain s i x vif vife textHere) (ht : textHere) :
    vifValue vif = 0x7C#7 ∧
      (∀ f, (s.drd.feedLast x vif vife).plainText = some f → exec i s = .next { s with drd := f.toValue s.params }) ∧
      ((s.drd.feedLast x vif vife).plainText = none →
        exec i s = .next { s with drd := (s.drd.feedLast x vif vife).stop .truncated }) := by
  obtain ⟨hs, ⟨value, v, hi, hx⟩, rfl, rfl, htext⟩ | ⟨hs, hmax, ⟨value, rfl, rfl⟩, rfl, rfl, htext⟩ := h
  · have hexec := exec_lastVifRow hi s
    have hext : extBit vif = false := hx ▸ extBit_vifByte false v
    rw [← hx, readVif_selected _ hs] at hexec
    refine ⟨htext.mp ht, fun f hf => ?_, fun hnone => ?_⟩
    · rw [hexec, Drd.readVif_last hext hf]
    · rw [hexec, Drd.readVif_last_stops hext hnone]
      rfl
  · obtain ⟨hv, hpos⟩ := htext.mp ht
    rw [exec_lastVife hs hmax]
    exact ⟨hv, fun f hf => by rw [Drd.endChain_text hpos hf], fun hnone => by rw [Drd.endChain_stops hpos hnone]⟩

/-- Behind the chain's last byte and the plain text where it stands there, the value follows. -/
theorem exec_endsChain_textThen (h : EndsChain s i x vif vife textHere) (ht : TextThen s.drd textHere text after m) :
    exec i s = .next { s with drd := (s.drd.atValue x vif vife text after m).toValue s.params } := by
  obtain ⟨hno, rfl, rfl, rfl⟩ | ⟨hhere, k, hrest, hk, rfl⟩ := ht
  · rw [exec_endsChain_noText h hno]
    simp [Drd.atValue, Drd.feedLast, Drd.feed]
  · obtain ⟨hv, hexec, -⟩ := exec_endsChain_text h hhere
    rw [hexec _ (Drd.plainText_present (s.drd.feedLast x vif vife) hv k text after hrest hk)]
    simp [Drd.atValue, Drd.feedLast, Drd.feed, hrest, ← hk, Nat.add_comm 1]

/-- What has been read there. -/
theorem Drd.hasRead_atValue {d : Drd} (ht : TextThen d textHere text after m) :
    d.HasRead x m (d.atValue x vif vife text after m) := by
  refine ⟨rfl, rfl, rfl, rfl, ?_, rfl⟩
  obtain ⟨-, -, rfl, rfl⟩ | ⟨-, k, hrest, hk, rfl⟩ := ht
  · rfl
  · simp [Drd.atValue, hrest, ← hk, Nat.add_comm 1]

end

/-- A data field of known width has the width R218 gives it. -/
theorem valueWidth_of_mem {df : BitVec 4} {n : Nat} (h : (df, n) ∈ fieldWidths) : df ≠ 0xD#4 ∧ valueWidth df = n :=
  (show ∀ f ∈ fieldWidths, f.1 ≠ 0xD#4 ∧ valueWidth f.1 = f.2 by decide) _ h

/-- Settles O49: the value of a record is taken from behind the chain and its text. -/
theorem endOfChainCompletesTheRecord : Obligations.EndOfChainCompletesTheRecord := by
  intro s i x vif vife textHere h
  refine ⟨fun text after m ht => ⟨?fixed, ?lvar⟩, ?cut⟩
  case fixed =>
    rintro df n hmem rfl
    obtain ⟨hlvar, rfl⟩ := valueWidth_of_mem hmem
    have hread := Drd.hasRead_atValue (x := x) (vif := vif) (vife := vife) ht
    have hexec := exec_endsChain_textThen h ht
    rw [Drd.toValue_fixed _ (s.drd.atValue x vif vife text after m) hlvar] at hexec
    exact ⟨fun hn hs => hread.value_record hexec hn hs, fun hn hm hs => hread.value_opaque hexec hn hm hs,
      fun hn => hread.value_stops hexec hn⟩
  case lvar =>
    intro hlvar
    rw [exec_endsChain_textThen h ht, Drd.toValue_lvar _ (s.drd.atValue x vif vife text after m) hlvar]
    rfl
  case cut =>
    intro ht hrest
    obtain ⟨hv, -, hstop⟩ := exec_endsChain_text h ht
    have hread : s.drd.HasRead x 0 (s.drd.feedLast x vif vife) :=
      ⟨rfl, rfl, rfl, (List.append_nil _).symm, rfl, rfl⟩
    exact hread.stopsDecoding (hstop (Drd.plainText_truncated (s.drd.feedLast x vif vife) hv hrest))


/-! #### The LVAR rows (R218, 44_values.md R254, R258 to R261) -/

/-- Every digit of packed BCD is a decimal one exactly when every byte's two nibbles are. -/
theorem allDecimal_bcdDigits (bs : List Byte) :
    allDecimal (bcdDigits bs) = true ↔ ∀ b ∈ bs, b.toNat % 16 ≤ 9 ∧ b.toNat / 16 ≤ 9 := by
  induction bs with
  | nil => simp [bcdDigits, allDecimal]
  | cons b bs ih =>
    rw [List.forall_mem_cons, ← ih]
    simp [bcdDigits, allDecimal, and_assoc]

/-- Packed BCD of a number that fits has decimal digits only, and they are the number's. -/
theorem bcdDigits_packBcd {k v : Nat} (hv : v < 100 ^ k) :
    allDecimal (bcdDigits (packBcd k v)) = true ∧ decimalOf (bcdDigits (packBcd k v)) = v := by
  induction k generalizing v with
  | zero =>
    obtain rfl : v = 0 := by simpa using hv
    exact ⟨rfl, rfl⟩
  | succ k ih =>
    rw [pow_succ] at hv
    obtain ⟨hdigits, hvalue⟩ := ih (v := v / 100) (by omega)
    have hbyte : (BitVec.ofNat 8 (v % 10 + 16 * (v / 10 % 10))).toNat = v % 10 + 16 * (v / 10 % 10) :=
      (BitVec.toNat_ofNat ..).trans (Nat.mod_eq_of_lt (by omega))
    refine ⟨(allDecimal_bcdDigits _).mpr ?_, ?_⟩
    · rw [packBcd, List.forall_mem_cons, hbyte]
      exact ⟨by omega, (allDecimal_bcdDigits _).mp hdigits⟩
    · rw [packBcd, bcdDigits, decimalOf, decimalOf, hvalue, hbyte]
      omega

theorem lvarBcd_packBcd (negative : Bool) {k v : Nat} (hv : v < 100 ^ k) :
    lvarBcd negative (packBcd k v) = .bcd (if negative then -(v : Int) else v) := by
  obtain ⟨hdigits, hvalue⟩ := bcdDigits_packBcd hv
  rw [lvarBcd, if_pos hdigits, hvalue]

theorem lvarBcd_invalid (negative : Bool) {bs : List Byte} (h : ∃ b ∈ bs, 9 < b.toNat % 16 ∨ 9 < b.toNat / 16) :
    lvarBcd negative bs = .bcdInvalid bs := by
  obtain ⟨b, hb, hdigit⟩ := h
  refine if_neg fun hall => ?_
  obtain ⟨hlow, hhigh⟩ := (allDecimal_bcdDigits bs).mp hall b hb
  omega

/-- The rows that give a length, each with the value it makes of the bytes behind it. -/
inductive LvarRow (cfg : Params) : Instr → Byte → Nat → (List Byte → Value) → Prop
  | text (n : Byte) (hn : n.toNat ≤ 0xBF) : LvarRow cfg (.lvarText n) n n.toNat fun bs => .text bs.reverse
  | bcdPos (k : BitVec 4) (hk : k.toNat ≤ 9) : LvarRow cfg (.lvarBcdPos k) (lvarByte 0xC k) k.toNat (lvarBcd false)
  | bcdNeg (k : BitVec 4) (hk : k.toNat ≤ 9) : LvarRow cfg (.lvarBcdNeg k) (lvarByte 0xD k) k.toNat (lvarBcd true)
  | binary (k : BitVec 4) : LvarRow cfg (.lvarBinary k) (lvarByte 0xE k) k.toNat fun bs => .int (intOf cfg bs)

section
variable {cfg : Params} {lv : Byte} {count : Nat} {f : List Byte → Value}

/-- They are the rows of `lvarRows`. -/
theorem exists_lvarRow {n : Byte} {k : BitVec 4} (hi : (i, lv, count) ∈ lvarRows n k) :
    ∃ f, LvarRow cfg i lv count f := by
  simp only [lvarRows, List.mem_append] at hi
  obtain (hi | hi) | hi := hi
  · split at hi
    · rename_i hn
      cases List.mem_singleton.mp hi
      exact ⟨_, .text _ hn⟩
    · cases hi
  · split at hi
    · rename_i hk
      obtain hi | hi := List.mem_pair.mp hi
      · cases hi
        exact ⟨_, .bcdPos k hk⟩
      · cases hi
        exact ⟨_, .bcdNeg k hk⟩
    · cases hi
  · cases List.mem_singleton.mp hi
    exact ⟨_, .binary k⟩

theorem readLvar_selected (lv : Byte) (hs : s.drd.phase = .lvar) :
    readLvar lv s = .next { s with drd := s.drd.readLvar s.params lv } := whenReading_selected _ s hs

theorem LvarRow.exec_eq (h : LvarRow cfg i lv count f) (s : State) : exec i s = readLvar lv s := by
  cases h <;> rfl

/-- The row's byte gives its count (44_values.md R261). -/
theorem LvarRow.lvarCount_eq (h : LvarRow cfg i lv count f) : lvarCount lv = count := by
  cases h with
  | text n hn => exact if_pos hn
  | bcdPos k hk =>
    obtain ⟨-, -, hcount⟩ := lvarByte_bcdPos k hk
    exact hcount
  | bcdNeg k hk =>
    obtain ⟨-, -, hcount⟩ := lvarByte_bcdNeg k hk
    exact hcount
  | binary k =>
    obtain ⟨-, -, hcount⟩ := lvarByte_binary k
    exact hcount

/-- The row's byte gives its kind of value (44_values.md R258 to R260). -/
theorem LvarRow.lvarValueOf_eq (h : LvarRow cfg i lv count f) (bs : List Byte) : lvarValueOf cfg lv bs = f bs := by
  cases h with
  | text n hn => exact if_pos hn
  | bcdPos k hk =>
    obtain ⟨hlo, hhi, -⟩ := lvarByte_bcdPos k hk
    simp (disch := omega) only [lvarValueOf, if_neg, if_pos]
  | bcdNeg k hk =>
    obtain ⟨hlo, hhi, -⟩ := lvarByte_bcdNeg k hk
    simp (disch := omega) only [lvarValueOf, if_neg, if_pos]
  | binary k =>
    obtain ⟨hlo, hhi, -⟩ := lvarByte_binary k
    simp (disch := omega) only [lvarValueOf, if_neg]

/-- What the value is by row, as 44_values.md writes it. -/
theorem LvarRow.value_eq (h : LvarRow cfg i lv count f) (n : Byte) (k : BitVec 4) (bs : List Byte) :
    (i = .lvarText n → f bs = .text bs.reverse) ∧ (i = .lvarBinary k → f bs = .int (intOf cfg bs)) ∧
      (∀ v, v < 100 ^ count → bs = packBcd count v →
        (i = .lvarBcdPos k → f bs = .bcd v) ∧ (i = .lvarBcdNeg k → f bs = .bcd (-(v : Int)))) ∧
      ((∃ b ∈ bs, 9 < b.toNat % 16 ∨ 9 < b.toNat / 16) →
        i = .lvarBcdPos k ∨ i = .lvarBcdNeg k → f bs = .bcdInvalid bs) := by
  cases h with
  | text => exact ⟨fun _ => rfl, nofun, fun _ _ _ => ⟨nofun, nofun⟩, fun _ h => h.elim nofun nofun⟩
  | binary => exact ⟨nofun, fun _ => rfl, fun _ _ _ => ⟨nofun, nofun⟩, fun _ h => h.elim nofun nofun⟩
  | bcdPos =>
    refine ⟨nofun, nofun, fun v hv hbs => ⟨fun _ => ?_, nofun⟩, fun hinvalid _ => lvarBcd_invalid _ hinvalid⟩
    rw [hbs, lvarBcd_packBcd _ hv]
    rfl
  | bcdNeg =>
    refine ⟨nofun, nofun, fun v hv hbs => ⟨nofun, fun _ => ?_⟩, fun hinvalid _ => lvarBcd_invalid _ hinvalid⟩
    rw [hbs, lvarBcd_packBcd _ hv]
    rfl

/-- No row that gives a length is reserved but under P_LVAR_EXTENDED = false (44_values.md R261). -/
theorem LvarRow.not_reserved (h : LvarRow cfg i lv count f) (hext : lv.toNat ≤ 0xBF ∨ cfg.lvarExtended = true) :
    lvarReserved cfg lv = false := by
  have hfree : isReservedLvar lv = false := by
    rw [← Bool.not_eq_true, isReservedLvar_iff]
    cases h with
    | text n hn => omega
    | bcdPos k hk =>
      obtain ⟨hlo, hhi, -⟩ := lvarByte_bcdPos k hk
      omega
    | bcdNeg k hk =>
      obtain ⟨hlo, hhi, -⟩ := lvarByte_bcdNeg k hk
      omega
    | binary k =>
      obtain ⟨hlo, hhi, -⟩ := lvarByte_binary k
      omega
  obtain hlow | hext := hext
  · have hnot : ¬ 0xC0 ≤ lv.toNat := by omega
    simp [lvarReserved, hfree, hnot]
  · simp [lvarReserved, hfree, hext]

end

/-- A reserved LVAR stops the decoder. -/
theorem stopsDecoding_of_lvarReserved {lv : Byte} (hs : s.drd.phase = .lvar) (hi : exec i s = readLvar lv s)
    (hreserved : lvarReserved s.params lv = true) : StopsDecoding i s lv .lvarReserved := by
  refine (Drd.hasRead_feed s.drd lv).stopsDecoding ?_
  rw [hi, readLvar_selected lv hs, Drd.readLvar_reserved hreserved]

/-- The RECORD of a value whose LVAR byte has been read is the one the row's context makes. -/
theorem recordOf_feed (cfg : Params) (d : Drd) (x : Byte) (vb : List Byte) :
    (d.feed x).recordOf cfg vb =
      recordWith cfg d d.vif d.text d.vife vb (decodeValue cfg (dataField d.dif) vb d.vif) := rfl

theorem decodeValue_manufacturer (cfg : Params) (df : BitVec 4) (vb : List Byte) {vif : Byte}
    (hv : vifValue vif = 0x7F#7) : decodeValue cfg df vb vif = .manufRaw vb := if_pos hv

theorem decodeValue_lvar (cfg : Params) (lv : Byte) (bs : List Byte) {vif : Byte} (hv : vifValue vif ≠ 0x7F#7) :
    decodeValue cfg 0xD (lv :: bs) vif = lvarValueOf cfg lv bs := if_neg hv

/-- Settles O52: a row that gives a length takes that many value bytes, which its kind decodes. -/
theorem lvarRows : Obligations.LvarRows := by
  intro s hs hdif
  refine ⟨fun n k i lv count hi hext => ?length, fun n k i lv count hi hlow hext => ?extended, fun lv hw => ?reserved⟩
  case extended =>
    obtain ⟨f, hrow⟩ := exists_lvarRow (cfg := s.params) hi
    exact stopsDecoding_of_lvarReserved hs (hrow.exec_eq s) (by simp [lvarReserved, hext, hlow])
  case reserved =>
    have hfree : isReservedLvar lv = true := hw
    exact stopsDecoding_of_lvarReserved hs rfl (by rw [lvarReserved, hfree, Bool.true_or])
  case length =>
    obtain ⟨f, hrow⟩ := exists_lvarRow (cfg := s.params) hi
    have hread := Drd.hasRead_feed s.drd lv
    have hexec := hrow.exec_eq s
    rw [readLvar_selected lv hs, Drd.readLvar_value (hrow.not_reserved hext), hrow.lvarCount_eq] at hexec
    have hrecord := fun hn => hread.value_record hexec (n := count) hn
    have hopaque := fun hn => hread.value_opaque hexec (n := count) hn
    rw [Nat.zero_add] at hrecord hopaque
    refine ⟨hread.value_stops hexec, fun hn hm => ?_, hopaque, fun hn hm hs => ?_⟩
    · have hitem := hrecord hn (.inl hm)
      rwa [recordOf_feed, decodeValue_manufacturer _ _ _ hm] at hitem
    · refine ⟨f (s.drd.rest.take count), ?_, hrow.value_eq n k _⟩
      have hitem := hrecord hn (.inr hs)
      rwa [recordOf_feed, hdif, List.singleton_append, decodeValue_lvar _ _ _ hm, hrow.lvarValueOf_eq] at hitem

end

end Sys2Proof.Machine
end

section
/-! PROOFS. The statements of 44_values.md: the kind of value each data field gives (R250), binary integers (R252),
packed BCD (R254 to R256) and the manufacturer's letters (R263, R264). -/

namespace Sys2Proof.Machine

open Sys2Proof.Claims

/-! ### The kind of value (R250) -/

/-- Settles O53: the manufacturer VIF is asked for first, then each data field has its own branch. -/
theorem decodeValueByDataField : Obligations.DecodeValueByDataField := by
  intro cfg vb vif
  refine ⟨fun hm df => decodeValue_manufacturer cfg df vb hm, fun hm => ⟨?none, ?int, if_neg hm, ?bcd, ?lvar⟩⟩
  case none =>
    intro df hdf
    obtain rfl | rfl := List.mem_pair.mp hdf <;> exact if_neg hm
  case int =>
    intro df hdf
    simp only [List.mem_cons, List.not_mem_nil, or_false] at hdf
    obtain rfl | rfl | rfl | rfl | rfl | rfl := hdf <;> exact if_neg hm
  case bcd =>
    intro df hdf
    simp only [List.mem_cons, List.not_mem_nil, or_false] at hdf
    obtain rfl | rfl | rfl | rfl | rfl := hdf <;> exact if_neg hm
  case lvar =>
    rintro lv bs rfl
    exact decodeValue_lvar cfg lv bs hm

/-! ### Binary integers (R252) -/

/-- Bit 7 of a byte sequence's last byte is the sign bit of its value. -/
theorem signBit_iff_leNat (vb : List Byte) :
    (vb.getLast?.getD 0).getLsbD 7 = true ↔ 2 ^ (8 * vb.length) ≤ 2 * leNat vb := by
  induction vb with
  | nil => simp
  | cons b bs ih =>
    cases bs with
    | nil =>
      have hmsb : b.getLsbD 7 = decide (2 ^ 7 ≤ b.toNat) := (BitVec.msb_eq_getLsbD_last b).symm.trans b.msb_eq_decide
      rw [List.getLast?_singleton, Option.getD_some, hmsb, decide_eq_true_iff, leNat_cons, leNat_nil,
        List.length_singleton]
      omega
    | cons c cs =>
      have hb := b.isLt
      have hwidth : 2 ^ (8 * (b :: c :: cs).length) = 256 * 2 ^ (8 * (c :: cs).length) := by
        rw [List.length_cons, Nat.mul_add, Nat.pow_add, Nat.mul_comm]
      have heven : 2 ∣ 2 ^ (8 * (c :: cs).length) := dvd_pow_self 2 (by simp)
      rw [List.getLast?_cons_cons, ih, leNat_cons b, hwidth]
      omega

/-- Settles O54: the branch of `intOf` is the one that two's complement of the width takes. -/
theorem binaryIntegersAreTwosComplement : Obligations.BinaryIntegersAreTwosComplement := by
  intro cfg vb
  refine ⟨fun hu => ?_, fun hs => ?_, leNat_lt vb⟩
  · simp [intOf, hu]
  · rw [BitVec.toInt_eq_toNat_cond, BitVec.toNat_ofNat, Nat.mod_eq_of_lt (leNat_lt vb), intOf]
    simp only [hs, true_and, signBit_iff_leNat]
    by_cases hsign : 2 ^ (8 * vb.length) ≤ 2 * leNat vb
    · rw [if_pos hsign, if_neg (by omega)]
      norm_cast
    · rw [if_neg hsign, if_pos (by omega)]

/-! ### Packed BCD (R254 to R256) -/

theorem bcdDigits_append (as bs : List Byte) : bcdDigits (as ++ bs) = bcdDigits as ++ bcdDigits bs := by
  induction as with
  | nil => rfl
  | cons a as ih => simp [bcdDigits, ih]

/-- A byte with the sign over a decimal digit. -/
theorem bcdDigits_signByte (digit : Nat) (h : digit ≤ 9) :
    bcdDigits [BitVec.ofNat 8 (0xF0 + digit)] = [digit, 15] := by
  revert digit
  decide

theorem length_bcdDigits_packBcd (k v : Nat) : (bcdDigits (packBcd k v)).length = 2 * k := by
  induction k generalizing v with
  | zero => rfl
  | succ k ih => simp [packBcd, bcdDigits, ih, Nat.mul_succ]

theorem decimalOf_append (ds es : List Nat) : decimalOf (ds ++ es) = decimalOf ds + 10 ^ ds.length * decimalOf es := by
  induction ds with
  | nil => simp [decimalOf]
  | cons d ds ih =>
    rw [List.cons_append, decimalOf, decimalOf, ih, List.length_cons, pow_succ']
    ring

theorem allDecimal_iff (ds : List Nat) : allDecimal ds = true ↔ ∀ d ∈ ds, d ≤ 9 := by
  simp [allDecimal]

section
variable {vb : List Byte} {ds : List Nat}

/-- Without a sign digit the digits are the number (R254, R256). -/
theorem bcdOf_unsigned (h : (bcdDigits vb).getLast? ≠ some 15) :
    bcdOf vb = if allDecimal (bcdDigits vb) then .bcd (decimalOf (bcdDigits vb)) else .bcdInvalid vb := by
  simp only [bcdOf, if_neg h]

/-- A sign digit negates the number of the digits under it (R255). -/
theorem bcdOf_signed (h : bcdDigits vb = ds ++ [15]) :
    bcdOf vb = if allDecimal ds then .bcd (-(decimalOf ds : Int)) else .bcdInvalid vb := by
  simp [bcdOf, h, allDecimal, decimalOf_append, decimalOf]

/-- A digit above 9 that is not the sign makes the field invalid (R256). -/
theorem bcdOf_invalid {pre post : List Nat} {d : Nat} (h : bcdDigits vb = pre ++ d :: post) (hd : 9 < d)
    (hsign : post ≠ [] ∨ d ≠ 15) : bcdOf vb = .bcdInvalid vb := by
  by_cases hneg : (bcdDigits vb).getLast? = some 15
  · obtain ⟨ds, hds⟩ := List.getLast?_eq_some_iff.mp hneg
    have hmem : d ∈ ds := by
      obtain hpost | hd15 := hsign
      · have hinit : ds = pre ++ d :: post.dropLast := by
          rw [← List.dropLast_concat (l₁ := ds) (b := 15), ← hds, h,
            List.dropLast_append_of_ne_nil (List.cons_ne_nil d post), List.dropLast_cons_of_ne_nil hpost]
        simp [hinit]
      · have hmem : d ∈ ds ++ [15] := by simp [← hds, h]
        exact (List.mem_append.mp hmem).resolve_right (by simpa using hd15)
    rw [bcdOf_signed hds, if_neg]
    exact fun hall => absurd ((allDecimal_iff ds).mp hall d hmem) (by omega)
  · rw [bcdOf_unsigned hneg, if_neg]
    exact fun hall => absurd ((allDecimal_iff _).mp hall d (by simp [h])) (by omega)

end

/-- Settles O55, from the three cases of `bcdOf`: no sign digit, a sign digit, and a digit above 9 elsewhere. -/
theorem packedBcdDecodes : Obligations.PackedBcdDecodes := by
  refine ⟨fun k v hv => ?unsigned, fun k v hv => ?signed, fun before after b hb => ?invalid⟩
  case unsigned =>
    obtain ⟨hdecimal, hvalue⟩ := bcdDigits_packBcd hv
    rw [bcdOf_unsigned, if_pos hdecimal, hvalue]
    exact fun h => absurd ((allDecimal_iff _).mp hdecimal 15 (List.mem_of_getLast? h)) (by decide)
  case signed =>
    have htop : v / 100 ^ k ≤ 9 := Nat.le_of_lt_succ (Nat.div_lt_of_lt_mul (by omega))
    obtain ⟨hdecimal, hvalue⟩ := bcdDigits_packBcd (Nat.mod_lt v (Nat.pow_pos (n := k) (by decide : 0 < 100)))
    have hdigits : allDecimal (bcdDigits (packBcd k (v % 100 ^ k)) ++ [v / 100 ^ k]) = true := by
      rw [allDecimal_iff, List.forall_mem_append, ← allDecimal_iff, List.forall_mem_singleton]
      exact ⟨hdecimal, htop⟩
    have hnumber : decimalOf (bcdDigits (packBcd k (v % 100 ^ k)) ++ [v / 100 ^ k]) = v := by
      rw [decimalOf_append, hvalue, length_bcdDigits_packBcd, pow_mul]
      exact Nat.mod_add_div v (100 ^ k)
    have hsplit : bcdDigits (packBcd k (v % 100 ^ k) ++ [BitVec.ofNat 8 (0xF0 + v / 100 ^ k)]) =
        bcdDigits (packBcd k (v % 100 ^ k)) ++ [v / 100 ^ k] ++ [15] := by
      rw [bcdDigits_append, bcdDigits_signByte _ htop, List.append_cons]
    rw [bcdOf_signed hsplit, if_pos hdigits, hnumber]
  case invalid =>
    have h : bcdDigits (before ++ b :: after) =
        bcdDigits before ++ b.toNat % 16 :: b.toNat / 16 :: bcdDigits after := bcdDigits_append _ _
    obtain hlow | ⟨hhigh, hsign⟩ := hb
    · exact bcdOf_invalid h hlow (.inl nofun)
    · refine bcdOf_invalid (h.trans (List.append_cons ..)) hhigh (hsign.imp_left fun hafter => ?_)
      cases after with
      | nil => contradiction
      | cons => nofun

/-! ### The manufacturer's letters (R263, R264) -/

/-- The letter of a 5-bit code. -/
def letterOf (code : BitVec 5) : Byte := 0x40 + code.setWidth 8

theorem exists_letterOf (x : Byte) (h : 0x40 ≤ x.toNat ∧ x.toNat ≤ 0x5F) : ∃ code, letterOf code = x := by
  revert x
  decide

/-- The first letter's code stands in bits 10 to 14, the second's in 5 to 9, the third's in 0 to 4 (R264). -/
theorem toNat_packLetters (a b c : BitVec 5) : (packLetters ⟨letterOf a, letterOf b, letterOf c⟩).toNat =
    2 ^ 10 * a.toNat + 2 ^ 5 * b.toNat + c.toNat := by
  have ha := a.isLt
  have hb := b.isLt
  have hc := c.isLt
  have hcode (code : BitVec 5) : letterOf code - 0x40 = code.setWidth 8 := add_sub_cancel_left _ _
  simp (disch := omega) only [packLetters, hcode, BitVec.toNat_or, BitVec.toNat_shiftLeft, BitVec.toNat_setWidth,
    Nat.shiftLeft_eq, Nat.mod_eq_of_lt, Nat.mul_comm _ (2 ^ _)]
  rw [Nat.or_assoc, ← Nat.two_pow_add_eq_or_of_lt hc, ← Nat.two_pow_add_eq_or_of_lt (by omega), Nat.add_assoc]

/-- A code is read back from the packing. -/
theorem extractLsb'_packLetters {a b c code : BitVec 5} {start : Nat}
    (h : (2 ^ 10 * a.toNat + 2 ^ 5 * b.toNat + c.toNat) / 2 ^ start % 2 ^ 5 = code.toNat) :
    (packLetters ⟨letterOf a, letterOf b, letterOf c⟩).extractLsb' start 5 = code := by
  apply BitVec.eq_of_toNat_eq
  rw [BitVec.extractLsb'_toNat, toNat_packLetters, Nat.shiftRight_eq_div_pow, h]

theorem lettersOf_packLetters (a b c : BitVec 5) :
    lettersOf (packLetters ⟨letterOf a, letterOf b, letterOf c⟩) = ⟨letterOf a, letterOf b, letterOf c⟩ := by
  have hb := b.isLt
  have hc := c.isLt
  rw [lettersOf, extractLsb'_packLetters (code := a) (by omega), extractLsb'_packLetters (code := b) (by omega),
    extractLsb'_packLetters (code := c) (by omega)]
  rfl

theorem packLetters_lettersOf {man : BitVec 16} (h : man.getLsbD 15 = false) : packLetters (lettersOf man) = man := by
  apply BitVec.eq_of_toNat_eq
  have hman : 2 * man.toNat < 2 ^ 16 := BitVec.msb_eq_false_iff_two_mul_lt.mp (man.msb_eq_getLsbD_last.trans h)
  refine (toNat_packLetters ..).trans ?_
  simp only [BitVec.extractLsb'_toNat, Nat.shiftRight_eq_div_pow]
  omega

/-- Settles O57: both directions pass through the three letters' codes. -/
theorem manufacturerLettersRoundTrip : Obligations.ManufacturerLettersRoundTrip := by
  refine ⟨fun man => packLetters_lettersOf, fun ⟨x, y, z⟩ hx hy hz => ?_⟩
  obtain ⟨a, rfl⟩ := exists_letterOf x hx
  obtain ⟨b, rfl⟩ := exists_letterOf y hy
  obtain ⟨c, rfl⟩ := exists_letterOf z hz
  exact lettersOf_packLetters a b c

end Sys2Proof.Machine
end

section
/-! PROOFS. The statements of 60_exceptions.md: the cause of a framing error tells the state that raised it (R303), and a
step that runs no command (R314). -/

namespace Sys2Proof.Machine

open Sys2Proof.Config Sys2Proof.Claims

/-! ### The error a pushed byte records (R303) -/

/-- A pushed byte records the cause that R303's table gives for it, or the table gives none and nothing is recorded. -/
theorem Parser.ByteEffect.raisedCause_cases {cfg : Params} {b : Byte} {p q : Parser} (h : p.ByteEffect cfg b q) :
    (∃ cause, raisedCause p b = some cause ∧ q = p.prologue.recordError cause) ∨
      (raisedCause p b = none ∧ q.errEvent = false ∧ q.lastErr = p.lastErr) := by
  cases h with
  | error hb => exact .inl ⟨_, hb, rfl⟩
  | single hs | short hs | long hs | start2 hs | stop hs =>
    exact .inr ⟨by simp [raisedCause, hs, ackByte, startShort, startLong, stopByte], rfl, rfl⟩
  | length hs hb => exact .inr ⟨by simp [raisedCause, hs, Nat.not_lt.mpr hb], rfl, rfl⟩
  | lengthRepeat hs | control hs | address hs | controlInfo hs | data hs | checksum hs =>
    exact .inr ⟨by simp [raisedCause, hs], rfl, rfl⟩

/-- Settles O22, from the byte's effect: what R306's error entry leaves, or no error. -/
theorem errorCauseTellsTheState : Obligations.ErrorCauseTellsTheState := by
  intro s t b h
  obtain ⟨q, hq, rfl⟩ := execPushByte_next h
  obtain ⟨cause, hcause, rfl⟩ | ⟨hnone, hkept⟩ := (Parser.pushByte_effect hq).raisedCause_cases
  · rw [hcause]
    exact ⟨rfl, rfl, rfl, rfl⟩
  · rw [hnone]
    exact hkept

/-! ### A step that runs no command (R314) -/

/-- A step refuses the oldest packet where it is no command. -/
theorem step_of_pending_malformed {s : State} {p : Packet} {ps : List Packet} {e : DecodeError}
    (h : s.pending = p :: ps) (hd : decode p = .error e) : step s = .refused (.malformedCommand e) := by
  simp [step, State.takeCommand, h, hd]

/-- Settles O6: no packet to take, or one that does not decode. -/
theorem stepWithoutACommand : Obligations.StepWithoutACommand :=
  ⟨fun _ => step_of_pending_nil, fun _ _ _ _ => step_of_pending_malformed⟩

end Sys2Proof.Machine
end
